-- ==== Sys2Proof/Word.lean ====
section
/-! DEFINITION. The word types of the Malgent FL420 and their plainest arithmetic (spec/00_scope.md, "Conventions"). -/

namespace Sys2Proof

/-- A byte of memory, of a link frame or of a pixel. -/
abbrev Byte := BitVec 8

/-- A 32-bit word: control-window words, wrapping counters, sequence numbers. -/
abbrev Word := BitVec 32

/-- A position along the ribbon: a value of the 32-bit ribbon counter (00_scope, "Ribbon coordinate"). -/
abbrev Pos := BitVec 32

/-- A background value, unsigned Q8.8 (00_scope, "Fixed-point values"). -/
abbrev Background := BitVec 16

/-- The number of byte addresses, 2^40 (00_scope, "Memory"). -/
def addressSpace : Nat := 2 ^ 40

/-- The number of bytes of a beat. -/
def beatBytes : Nat := 32

end Sys2Proof
end

