-- ==== Sys2Proof/Syntax.lean ====
section
/-! DEFINITION. The commands of the FL420: one constructor of `Instr` per row of spec/opcode_table.json, with the operands that the
rule of its row takes from outside the part. -/

namespace Sys2Proof

/-- The kind of an edge on ENC (R1). -/
inductive Edge where
  | lowToHigh
  | highToLow
  deriving DecidableEq, Repr

/-- The kind of a memory request (00_scope, "Memory"). -/
inductive ReqKind where
  | read
  | write
  deriving DecidableEq, Repr

/-- One beat of an upstream write: its 32 bytes and its 32 byte-enables, bit `k` enabling byte `k`. -/
structure Beat where
  data : List Byte
  enables : BitVec 32
  deriving DecidableEq, Repr

/-- An upstream request (00_scope, "Memory"; 7.1): kind, beat-aligned address, length in beats, source tag and, for a write, its
beats. -/
structure Request where
  kind : ReqKind
  addr : BitVec 40
  length : Nat
  tag : Byte
  beats : List Beat
  deriving DecidableEq, Repr

/-- Where a link transfer was abandoned (R116): before the part's check byte was fully sent (a START mark never sent counts here,
R114), or after it. -/
inductive AbandonPoint where
  | beforeCheck
  | afterCheck
  deriving DecidableEq, Repr

/-- What the part sees of LCK one bit time after an abandonment (R116). -/
inductive Lck where
  | seenHigh
  | stillLow
  deriving DecidableEq, Repr

/-- The commands: the rows of the table of operations and events. The comment of a constructor names the rule of its row. -/
inductive Instr where
  /-- R166: PORST_N rises; the straps hold `ctlsel`. -/
  | powerOnReset (ctlsel : BitVec 2)
  /-- R1: an edge of the given kind on ENC. -/
  | encoderEdge (edge : Edge)
  /-- R2: the line divider has run from 1 to 0. -/
  | lineTrigger
  /-- R82: the expiry of the deadline is taken. -/
  | deadlineExpiry
  /-- R113: the head WAITING entry is due while the engine is in GAP. -/
  | entryDue
  /-- R105: the miss test of a counter event. -/
  | entryMissed
  /-- R109: the timeout test of a counter event. -/
  | cutTimeout
  /-- R152: the prescale count reaches prescale. -/
  | millisecondTick
  /-- R153: the raised timer expiry is taken. -/
  | shiftTimerExpiry
  /-- R125: a request arrives at the upstream port. -/
  | upstreamRequest (r : Request)
  /-- R126: the transit candidate is a fully masked write. -/
  | fullyMaskedForward
  /-- R135: the downstream port can take a request. -/
  | downstreamGrant
  /-- R158: a beat of command slot `slot` is observed. -/
  | controlWindowWrite (slot : Fin 8) (data : List Byte) (enables : BitVec 32)
  /-- R165: the acknowledge word is observed, bit `k` of `enables` enabling byte `k`. -/
  | acknowledgeWrite (word : Word) (enables : BitVec 4)
  /-- R165: the event enable word is observed. -/
  | eventEnableWrite (word : Word) (enables : BitVec 4)
  /-- R146: the stop word of channel `ch` is observed. -/
  | stopWordWrite (ch : Fin 3) (word : Word) (enables : BitVec 4)
  /-- R126: memory answers the oldest granted request, a transit request; `data` are the bytes of a read. -/
  | downstreamAnswer (data : List Byte)
  /-- R132: a waiting own request finds a place. -/
  | ownRequestPlaced
  /-- R132: memory answers the oldest granted request, an own read, with `data`. -/
  | ownReadReturn (data : List Byte)
  /-- R133: memory completes the oldest granted request, an own write. -/
  | ownWriteCompletion
  /-- R21: the analysis of the line in analysis ends. -/
  | analysisEnd
  /-- R162: the command at the head of the command FIFO, a START, begins. -/
  | start
  /-- R162: a STOP begins. -/
  | stop
  /-- R31: a RELEARN begins. -/
  | relearn
  /-- R163: a LOAD_TABLES begins. -/
  | loadTables
  /-- R37: a LOAD_REFERENCE begins. -/
  | loadReference
  /-- R39: a SAVE_REFERENCE begins. -/
  | saveReference
  /-- R156: an END_SHIFT begins. -/
  | endShift
  /-- R141: a CHANNEL command with operation START begins. -/
  | channelStart
  /-- R147: a CHANNEL command with operation PAUSE begins. -/
  | channelPause
  /-- R147: a CHANNEL command with operation RESUME begins. -/
  | channelResume
  /-- R148: a CHANNEL command with operation TERMINATE begins. -/
  | channelTerminate
  /-- R107: a BRIDGE_ENABLE begins. -/
  | bridgeEnable
  /-- R96: a MANUAL_CUT begins. -/
  | manualCut
  /-- R164: a STATUS_REFRESH begins. -/
  | statusRefresh
  /-- R167: a RESET_ENGINE begins. -/
  | resetEngine
  /-- R161: a command with an undefined code begins. -/
  | badCommand
  /-- R118: the CUT transfer on the link ends with the bridge's two bytes. -/
  | cutTransferEnd (code check : Byte)
  /-- R119: the POLL transfer on the link ends with the bridge's three bytes. -/
  | pollTransferEnd (status tag check : Byte)
  /-- R112: poll_gap bit times have run in the gap in progress. -/
  | pollGapEnd
  /-- R116: the transfer on the link is abandoned. -/
  | transferAbandon (point : AbandonPoint) (lck : Lck)
  /-- R117: LCK is seen high in STUCK. -/
  | stuckExit
  /-- R138: PORST_N falls. -/
  | porstNLow
  /-- R114: both lines are seen high for a delayed START mark. -/
  | linkLinesSeenHigh
  deriving DecidableEq, Repr

end Sys2Proof
end

