-- ==== Sys2Proof/Config.lean ====
section
/-! DEFINITION. The free values of the model: what the spec leaves open, as constants without a body. -/

namespace Sys2Proof

/-- The result value of a CHANNEL command refused with BAD_ARG for a channel above 2: R161 gives "channel state" as its result
value, and there is no such channel. The `n`-th such value of a run is `Config.freeResult n` (DESIGN CHOICE, log entry 3: nothing
constrains it). -/
opaque Config.freeResult : Nat → Word

end Sys2Proof
end

