-- ==== Sys2Proof/Machine/Types.lean ====
section
/-! DEFINITION. The data the FL420's blocks hold: tables, lines, blobs, flaws, pieces, requests, records, counters. Plain data; what
acts on it stands in Ops.lean and the files of the blocks. -/

namespace Sys2Proof.Machine

/-! ### Tables -/

/-- Which edges on ENC are counted (R1). -/
inductive EncEdge where
  | rising
  | falling
  | both
  deriving DecidableEq, Repr

/-- The polarity of a run, blob or flaw (R26). -/
inductive Polarity where
  | dark
  | bright
  deriving DecidableEq, Repr

/-- The polarity_enable parameter (R26). -/
inductive PolarityEnable where
  | dark
  | bright
  | both
  deriving DecidableEq, Repr

/-- The DETECT table (2.7, R33, R170). -/
structure Detect where
  linePx : Nat
  spanFirst : Nat
  spanLast : Nat
  ldiv : Nat
  encEdge : EncEdge
  polarityEnable : PolarityEnable
  thDark : Nat
  tlDark : Nat
  thBright : Nat
  tlBright : Nat
  minRun : Nat
  joinCols : Nat
  gapLines : Nat
  trackShift : Nat
  learnShift : Nat
  learnLines : Nat
  maxBlobCounts : Nat
  colPitchUm : Nat
  countUm : Nat
  deriving DecidableEq, Repr

/-- A table of 8192 entries as the list of its entries that differ from the power-on value, indices rising. -/
abbrev Cells (α : Type) := List (Nat × α)

/-- One CLASS rule (R53). -/
structure ClassRule where
  cls : Fin 16
  dark : Bool
  bright : Bool
  aspect : Nat
  minPeak : Nat
  minArea : Nat
  minUm : Nat
  maxUm : Nat
  deriving DecidableEq, Repr

/-- The band bounds and the points of one class (R54, R56). -/
structure ClassEntry where
  b1 : Nat
  b2 : Nat
  b3 : Nat
  points : Vector Nat 4
  deriving DecidableEq, Repr

/-- The CLASS table (R53 to R57). -/
structure ClassTable where
  rules : List ClassRule
  classes : Vector ClassEntry 16
  deriving DecidableEq, Repr

/-- The grades, best first (00_scope, "Grades"). -/
inductive Grade where
  | a
  | b
  | c
  | cull
  deriving DecidableEq, Repr

/-- The zones across the ribbon (R55). -/
inductive Zone where
  | center
  | edge
  | trim
  deriving DecidableEq, Repr

/-- The GRADE table (4.1). -/
structure GradeTable where
  trimCols : Nat
  edgeCols : Nat
  weightCenter : Nat
  weightEdge : Nat
  weightTrim : Nat
  aMax : Nat
  bMax : Nat
  cMax : Nat
  gapCap : Grade
  cutoutPoints : Nat
  laneA : Nat
  laneB : Nat
  laneC : Nat
  laneCull : Nat
  laneCutout : Nat
  deriving DecidableEq, Repr

/-- One product (5.7). -/
structure Product where
  length : Nat
  floor : Grade
  enabled : Bool
  deriving DecidableEq, Repr

/-- The PRODUCT table (5.7). -/
structure ProductTable where
  products : Vector Product 8
  minStrip : Nat
  cutClear : Nat
  settle : Nat
  deriving DecidableEq, Repr

/-- The LINK table (6.7). -/
structure LinkTable where
  mask : BitVec 4
  stationOffset : Nat
  lead : Nat
  issueMargin : Nat
  missTol : Nat
  cutTimeout : Nat
  linkDiv : Nat
  stretchLimit : Nat
  pollGap : Nat
  deriving DecidableEq, Repr

/-- A memory window: base and size in bytes; size 0 is absent (7.2). -/
structure Window where
  base : Nat
  size : Nat
  deriving DecidableEq, Repr

/-- The TRANSIT table (7.6). -/
structure TransitTable where
  image : Window
  protect : Vector Window 6
  ownShare : Nat
  refreshLines : Nat
  deriving DecidableEq, Repr

/-- The SHIFT table (9.3): `coarse` is the 1 s step mode, `repeats` the mode REPEAT. -/
structure ShiftTable where
  prescale : Nat
  coarse : Bool
  length : Nat
  repeats : Bool
  enabled : Bool
  deriving DecidableEq, Repr

/-- The kinds of table a directory can name (11.6). -/
inductive TableKind where
  | transit
  | detect
  | column
  | cls
  | grade
  | product
  | link
  | shift
  deriving DecidableEq, Repr

/-- A table read and validated, waiting for the rest of its load (R163). -/
inductive TableBody where
  | transit (t : TransitTable)
  | detect (t : Detect)
  | column (t : Cells Nat)
  | cls (t : ClassTable)
  | grade (t : GradeTable)
  | product (t : ProductTable)
  | link (t : LinkTable)
  | shift (t : ShiftTable)
  deriving DecidableEq, Repr

/-- An entry of the table directory (11.6). -/
structure DirEntry where
  kind : TableKind
  addr : Nat
  deriving DecidableEq, Repr

/-! ### Line capture -/

/-- A complete line (R9). -/
structure Line where
  stamp : Pos
  extrapolated : Bool
  slot : Nat
  pixels : List Byte
  deriving DecidableEq, Repr

/-- A line in assembly, the state IN_LINE (1.4). -/
structure Assembly where
  slot : Nat
  stamp : Pos
  extrapolated : Bool
  received : Nat
  next : Nat
  pixels : List Byte
  deriving DecidableEq, Repr

/-- A gap range (R16). -/
structure Gap where
  start : Pos
  length : Nat
  deriving DecidableEq, Repr

/-- The loss causes, in the order of 11.3 (R17). -/
inductive LossCause where
  | triggerOverrun
  | lineBreak
  | analysisOverrun
  | blobTableFull
  | flawStoreFull
  deriving DecidableEq, Repr

/-! ### Flaw detection -/

/-- The kind of a line and the analysis mode (R20). -/
inductive LineMode where
  | learn
  | run
  deriving DecidableEq, Repr

/-- A run of adjacent candidate columns of one polarity (R27, R28). -/
structure Run where
  first : Nat
  last : Nat
  polarity : Polarity
  strong : Bool
  peak : Nat
  sum : Nat
  deriving DecidableEq, Repr

/-- An open blob (3.1). `cols` is [min_col, max_col], absent while the area is 0; `continuedFrom` is present when CONTINUED. -/
structure Blob where
  id : Nat
  polarity : Polarity
  first : Pos
  last : Pos
  x0 : Nat
  x1 : Nat
  cols : Option (Nat × Nat)
  area : Nat
  sum : Nat
  peak : Nat
  lines : Nat
  merged : Bool
  continuedFrom : Option Nat
  deriving DecidableEq, Repr

/-- A flaw (R58). `continuedFrom` is present when CONTINUED, `remainderOf` when REMAINDER. -/
structure Flaw where
  id : Nat
  polarity : Polarity
  first : Pos
  last : Pos
  minCol : Nat
  maxCol : Nat
  area : Nat
  sum : Nat
  peak : Nat
  lines : Nat
  stop : Pos
  widthUm : Nat
  lengthUm : Nat
  size : Nat
  cls : Fin 16
  band : Fin 4
  zone : Zone
  points : Nat
  merged : Bool
  continuedFrom : Option Nat
  split : Bool
  cutThrough : Bool
  truncated : Bool
  remainderOf : Option Word
  deriving DecidableEq, Repr

/-! ### Planning and dispatch -/

/-- The open piece: its start S and its armed deadline D (5.1, 5.2). -/
structure OpenPiece where
  start : Pos
  deadline : Pos
  deriving DecidableEq, Repr

/-- What a grading returns (4): points, disqualification, uninspected length, flaw count, grade. -/
structure Grading where
  points : Nat
  disqualified : Bool
  uninspected : Nat
  count : Nat
  grade : Grade
  deriving DecidableEq, Repr

/-- A committed piece as its queue entry and its record carry it (R94). -/
structure Piece where
  seq : Word
  start : Pos
  stop : Pos
  fire : Pos
  product : Option (Fin 8)
  grade : Grade
  points : Nat
  flawCount : Nat
  uninspected : Nat
  lane : Nat
  cutout : Bool
  belowFloor : Bool
  forced : Bool
  cutThrough : Bool
  manual : Bool
  deriving DecidableEq, Repr

/-- The state of a cut-queue entry (R103). -/
inductive EntryState where
  | waiting (inTransfer : Bool)
  | issued (bridge : Fin 4) (tag : Byte) (issue : Pos)
  deriving DecidableEq, Repr

/-- A cut-queue entry (R103). -/
structure Entry where
  piece : Piece
  state : EntryState
  deriving DecidableEq, Repr

/-- The final fate of a committed piece (R104). -/
inductive PieceOutcome where
  | cut
  | missed
  | faulted
  | abandoned
  deriving DecidableEq, Repr

/-- The state of a bridge; its outstanding tag and piece are present only when BUSY (6.2). -/
inductive BridgeState where
  | disabled
  | offline
  | idle
  | busy (tag : Byte) (piece : Word)
  | notReady
  | fault
  deriving DecidableEq, Repr

/-- A bridge record (6.2). `faultCode` is 0xFF for NONE and 0x80 for TIMEOUT (R171). -/
structure Bridge where
  state : BridgeState
  misses : Nat
  lastStatus : Byte
  lastTag : Byte
  faultCode : Byte
  deriving DecidableEq, Repr

/-- The link engine (6.3). In a transfer `startSent` says that a delayed START mark has been sent (R114); a CUT carries the order's
piece, tag and lane (R118). -/
inductive Engine where
  | idle
  | pollXfer (bridge : Fin 4) (startSent : Bool)
  | cutXfer (bridge : Fin 4) (piece : Word) (tag : Byte) (lane : Nat) (startSent : Bool)
  | gap
  | stuck
  deriving DecidableEq, Repr

/-! ### Memory transit -/

/-- The class of a beat (R127, R128); the control window is split as the table of R128 splits it. -/
inductive BeatClass where
  | statusBlock
  | commandSlot (n : Fin 8)
  | controlWords
  | controlOther
  | image
  | protect (k : Fin 6)
  | plain
  deriving DecidableEq, Repr

/-- The states of a transit-queue entry (7.1). -/
inductive TransitState where
  | pending
  | forwarded
  | ready
  deriving DecidableEq, Repr

/-- A transit-queue entry: the request, its state, the classes of its beats once it has become the transit candidate (R128), and
what memory answered a read. -/
structure TransitEntry where
  req : Request
  state : TransitState
  classes : Option (List BeatClass)
  answer : List Byte
  deriving DecidableEq, Repr

/-- An answer given upstream: the source tag and, for a read, memory's bytes (R125). -/
structure Answer where
  tag : Byte
  data : List Byte
  deriving DecidableEq, Repr

/-- What an own request is for; it names its producer (R132). -/
inductive OwnPurpose where
  | result (slot : Fin 8) (value : Word) (word : Word)
  | status
  | tableRead
  | referenceRead
  | snapshot
  | descriptor (ch : Fin 3)
  | record (ch : Fin 3)
  deriving DecidableEq, Repr

/-- An own request: purpose, kind, address, beats and the bytes of a write. The bytes of a result write and of the status write are
taken at the grant (R160, R164). -/
structure OwnRequest where
  purpose : OwnPurpose
  kind : ReqKind
  addr : Nat
  beats : Nat
  data : List Byte
  deriving DecidableEq, Repr

/-- A granted request that memory has not yet answered: a transit request as it went downstream, its enables as masked (R126), or an own
request (R132; `OwnRequest.wire` is what went downstream of it). -/
inductive InFlight where
  | transit (sent : Request)
  | own (r : OwnRequest)
  deriving DecidableEq, Repr

/-! ### Record output -/

/-- A flaw record (11.5). -/
structure FlawRecord where
  piece : Word
  flaw : Flaw
  deriving DecidableEq, Repr

/-- A piece record (11.5): the piece, its outcome, the counter at the outcome, the bridge, tag and issue position if it was ISSUED,
and the fault code it carries. -/
structure PieceRecord where
  piece : Piece
  outcome : PieceOutcome
  counter : Pos
  issued : Option (Fin 4 × Byte × Pos)
  faultCode : Byte
  deriving DecidableEq, Repr

/-- Why a shift opened or closed (9, R155). -/
inductive ShiftReason where
  | reset
  | timer
  | command
  deriving DecidableEq, Repr

/-- The open-shift counters (R150), each saturating at 2^32 − 1. -/
structure ShiftCounters where
  grades : Vector Nat 4
  outcomes : Vector Nat 4
  cutoutPieces : Nat
  cutoutLength : Nat
  belowFloor : Nat
  forced : Nat
  manual : Nat
  flaws : Vector Nat 16
  lines : Nat
  lost : Vector Nat 5
  lostLength : Vector Nat 5
  extrapolated : Nat
  bridgeFaults : Vector Nat 4
  bridgeMisses : Vector Nat 4
  recordsDropped : Vector Nat 3
  protectedBeats : Nat
  deriving DecidableEq, Repr

/-- A shift report (R155). -/
structure ShiftReport where
  number : Word
  openReason : ShiftReason
  closeReason : ShiftReason
  startPos : Pos
  endPos : Pos
  coarse : Bool
  stepCount : Nat
  counters : ShiftCounters
  deriving DecidableEq, Repr

/-- What a record says. -/
inductive RecordBody where
  | flaw (r : FlawRecord)
  | piece (r : PieceRecord)
  | report (r : ShiftReport)
  deriving DecidableEq, Repr

/-- A record with the record sequence number its channel gave it (R139). -/
structure Record where
  seq : Word
  body : RecordBody
  deriving DecidableEq, Repr

/-- A loaded descriptor (R142). -/
structure Descriptor where
  buffer : Nat
  capacity : Nat
  flag : Bool
  eol : Bool
  deriving DecidableEq, Repr

/-- The channel states (8.2), in the order of 11.3. -/
inductive ChannelState where
  | stopped
  | active
  | held
  | paused
  | ended
  | fault
  deriving DecidableEq, Repr

/-- A channel's activity (8). -/
inductive Activity where
  | none
  | fetching
  | writing
  deriving DecidableEq, Repr

/-- A channel's pending operation (R147, R148). -/
inductive PendingOp where
  | none
  | pause
  | terminate
  deriving DecidableEq, Repr

/-- An output channel (8). `restart` is restart-queued with its staged table address and auto-restart flag (R141). -/
structure Channel where
  queue : List Record
  nextSeq : Word
  produced : Word
  written : Word
  dropped : Word
  state : ChannelState
  table : Nat
  autoRestart : Bool
  restart : Option (Nat × Bool)
  index : Nat
  entry : Option Descriptor
  remaining : Nat
  activity : Activity
  pendingOp : PendingOp
  deriving DecidableEq, Repr

/-! ### Commands -/

/-- The 17 causes of the cause word (R165). -/
inductive Cause where
  | cmdDone
  | shiftClosed
  | chFlag (ch : Fin 3)
  | chStop (ch : Fin 3)
  | chEol (ch : Fin 3)
  | chFault
  | pieceMissed
  | bridgeFault
  | recordDrop
  | protectHit
  | lineLoss
  deriving DecidableEq, Repr

/-- The inspection states (R162). -/
inductive Inspection where
  | off
  | learn
  | run
  | stopping
  deriving DecidableEq, Repr

/-- A slot's state (10.1). -/
inductive SlotState where
  | free
  | queued
  | running
  deriving DecidableEq, Repr

/-- The command a slot holds: code, sequence byte and words 1 to 5 (R158; no command reads words 4 and 5, 10.1). -/
structure Command where
  code : Byte
  sequence : Byte
  arg1 : Word
  arg2 : Word
  arg3 : Word
  arg4 : Word
  arg5 : Word
  deriving DecidableEq, Repr

/-- A command slot: the copy of its words 0 to 5, its state, the command it holds and the overrun flag (R158). -/
structure Slot where
  copy : Vector Word 6
  state : SlotState
  command : Command
  overrun : Bool
  deriving DecidableEq, Repr

/-- What a running command has done and waits for (R159, R161, R163, R169). -/
inductive Phase where
  /-- LOAD_TABLES waits for the directory's header. -/
  | dirHeader (addr : Nat)
  /-- LOAD_TABLES waits for the directory's entries. -/
  | dirEntries (count : Nat)
  /-- LOAD_TABLES reads table `index`: the bytes it has, the entries still to do, the table in hand first, the tables found good, and the
  index of the first table refused, if one has been. -/
  | tables (index : Nat) (entries : List DirEntry) (bytes : List Byte) (good : List TableBody) (refused : Option Nat)
  /-- The waiting phase of LOAD_TABLES: every table has been staged. -/
  | tablesStaged (count : Nat)
  /-- LOAD_REFERENCE has read these bytes. -/
  | referenceRead (bytes : List Byte)
  /-- The waiting phase of LOAD_REFERENCE. -/
  | referenceStaged
  /-- The waiting phase of SAVE_REFERENCE: so many of its 32 writes are complete. -/
  | saving (done : Nat)
  /-- The waiting phase of STOP. -/
  | stopping
  /-- A PAUSE or TERMINATE waits for the channel's request in flight. -/
  | channelOp (ch : Fin 3)
  /-- BRIDGE_ENABLE waits for a transfer boundary. -/
  | bridgeMask
  /-- STATUS_REFRESH waits for the grant of the status write. -/
  | refresh
  deriving DecidableEq, Repr

/-- A running command. -/
structure Running where
  slot : Fin 8
  phase : Phase
  deriving DecidableEq, Repr

/-- The status of a result (R160), coded as 11.2 gives. -/
inductive Status where
  | ok
  | badState
  | badArg
  | infeasible
  | tableInvalid
  | badCommand
  deriving DecidableEq, Repr

end Sys2Proof.Machine
end

