-- ==== Sys2Proof/Machine/Ribbon.lean ====
section
/-! DEFINITION. The order of ribbon positions (00_scope, "Ribbon coordinate") and small saturating and wrapping arithmetic. -/

namespace Sys2Proof.Machine

/-- The distance from `a` to `b`: (b − a) mod 2^32. -/
def dist (a b : Pos) : Nat := (b - a).toNat

/-- `a` is before `b`, that is, `b` is after `a`: the distance lies in 1 to 2^31 − 1. -/
def before (a b : Pos) : Bool := decide (1 ≤ dist a b ∧ dist a b < 2 ^ 31)

/-- `p` reaches `x`: it is equal to `x` or after it. -/
def reaches (x p : Pos) : Bool := decide (dist x p < 2 ^ 31)

/-- The position `n` counts after `p`, modulo 2^32. -/
def ahead (p : Pos) (n : Nat) : Pos := p + BitVec.ofNat 32 n

/-- The position `n` counts before `p`, modulo 2^32. -/
def behind (p : Pos) (n : Nat) : Pos := p - BitVec.ofNat 32 n

/-- The later of two positions. -/
def laterOf (a b : Pos) : Pos := if before a b then b else a

/-- The earlier of two positions. -/
def earlierOf (a b : Pos) : Pos := if before b a then b else a

/-- How far `p` lies past `s`, 0 if it lies before `s`, and at most `l`. -/
def offsetIn (s : Pos) (l : Nat) (p : Pos) : Nat := min l (p - s).toInt.toNat

/-- Addition saturating at `top` (00_scope, "Saturating"). -/
def satAdd (top a b : Nat) : Nat := min top (a + b)

/-- The largest 32-bit number. -/
def max32 : Nat := 2 ^ 32 - 1

/-- The largest area and line count of a blob (3.1). -/
def max24 : Nat := 16777215

/-- The next of a sequence number that wraps from 0xFFFF_FFFF to 1 (R92, R139, R155). -/
def nextSequence (n : Word) : Word := if n = 0xFFFFFFFF then 1 else n + 1

end Sys2Proof.Machine
end

