-- ==== Sys2Proof/Machine/Classify.lean ====
section
/-! DEFINITION. From a closed, provisional or truncated blob to a flaw: measures, class, band, zone, effective points (R52 to R56,
R58, R60). -/

namespace Sys2Proof.Machine

/-- What R53 tests of a flaw. -/
structure Measure where
  polarity : Polarity
  widthUm : Nat
  lengthUm : Nat
  size : Nat
  peak : Nat
  area : Nat
  deriving DecidableEq, Repr

/-- A rule matches: polarity, size, aspect, peak and area (R53). -/
def ClassRule.holds (r : ClassRule) (m : Measure) : Bool :=
  (match m.polarity with
    | .dark => r.dark
    | .bright => r.bright)
  && decide (r.minUm ≤ m.size) && decide (m.size ≤ r.maxUm)
  && (decide (r.aspect = 0) || decide (r.aspect * m.widthUm ≤ m.lengthUm))
  && decide (r.minPeak ≤ m.peak) && decide (r.minArea ≤ m.area)

/-- Class 15, UNCLASSIFIED (R53). -/
def unclassified : Fin 16 := 15

/-- The class of the first rule that matches, else UNCLASSIFIED (R53). -/
def ClassTable.classOf (t : ClassTable) (m : Measure) : Fin 16 :=
  match t.rules.find? (ClassRule.holds · m) with
  | some r => r.cls
  | none => unclassified

/-- The band of a size under a class's bounds (R54). -/
def ClassEntry.bandOf (e : ClassEntry) (size : Nat) : Fin 4 :=
  if size < e.b1 then 0 else if size < e.b2 then 1 else if size < e.b3 then 2 else 3

/-- The zone of a centre column (R55). -/
def zoneOf (t : Detect) (g : GradeTable) (centre : Nat) : Zone :=
  if centre < t.spanFirst ∨ t.spanLast < centre ∨ centre - t.spanFirst < g.trimCols ∨ t.spanLast - centre < g.trimCols then .trim
  else if centre - t.spanFirst < g.edgeCols ∨ t.spanLast - centre < g.edgeCols then .edge
  else .center

/-- The weight of a zone, in eighths (R56). -/
def GradeTable.weight (g : GradeTable) : Zone → Nat
  | .center => g.weightCenter
  | .edge => g.weightEdge
  | .trim => g.weightTrim

/-- The effective points of base points under a weight (R56). -/
def effectivePoints (base w : Nat) : Nat :=
  if w = 0 then 0 else if base = 255 then 255 else min 254 ((base * w + 4) / 8)

/-- A flaw is disqualifying when its effective points are 255 (R56). -/
def Flaw.disqualifying (f : Flaw) : Bool := decide (f.points = 255)

/-- The measures of a blob that ends at `stop` (R52). -/
def Blob.measure (t : Detect) (b : Blob) (stop : Pos) : Measure :=
  let c := b.cols.getD (0, 0)
  let widthUm := (c.2 - c.1 + 1) * t.colPitchUm
  let lengthUm := dist b.first stop * t.countUm
  { polarity := b.polarity, widthUm := widthUm, lengthUm := lengthUm, size := max widthUm lengthUm, peak := b.peak, area := b.area }

/-- The flaw of a blob that ends at `stop`, classified, banded, zoned and given its effective points (R52 to R56, R58). -/
def Blob.toFlaw (t : Detect) (k : ClassTable) (g : GradeTable) (b : Blob) (stop : Pos) (split truncated : Bool) : Flaw :=
  let c := b.cols.getD (0, 0)
  let m := b.measure t stop
  let cls := k.classOf m
  let entry := k.classes[cls]
  let band := entry.bandOf m.size
  let zone := zoneOf t g ((c.1 + c.2) / 2)
  { id := b.id, polarity := b.polarity, first := b.first, last := b.last, minCol := c.1, maxCol := c.2, area := b.area,
    sum := b.sum, peak := b.peak, lines := b.lines, stop := stop, widthUm := m.widthUm, lengthUm := m.lengthUm, size := m.size,
    cls := cls, band := band, zone := zone, points := effectivePoints entry.points[band] (g.weight zone), merged := b.merged,
    continuedFrom := b.continuedFrom, split := split, cutThrough := false, truncated := truncated, remainderOf := none }

/-- The end of an open blob, last_pos + ldiv (R60). -/
def Blob.stop (ldiv : Nat) (b : Blob) : Pos := ahead b.last ldiv

/-- The blob gives a provisional flaw against `e` (R60). -/
def Blob.provisionalAt (e : Pos) (b : Blob) : Bool := decide (b.area ≠ 0) && before b.first e

/-- The provisional flaw of a blob against `e` (R60); with `truncated`, the truncated flaw of R62, which is formed in the same way. -/
def Blob.provisional (t : Detect) (k : ClassTable) (g : GradeTable) (e : Pos) (truncated : Bool) (b : Blob) : Flaw :=
  b.toFlaw t k g (earlierOf (b.stop t.ldiv) e) false truncated

end Sys2Proof.Machine
end

