-- ==== Sys2Proof/Machine/Linking.lean ====
section
/-! DEFINITION. Linking the runs of a line into the open blob table, splitting and closure (R41, R44 to R50). -/

namespace Sys2Proof.Machine

/-- The id after `n`; after 65535 comes 1 (R41). -/
def idAfter (n : Nat) : Nat := if n ≥ 65535 then 1 else n + 1

/-- The first id after `last` that is not held, looking at most `fuel` ids ahead. -/
def findId (held : List Nat) : Nat → Nat → Nat
  | 0, last => idAfter last
  | fuel + 1, last => if idAfter last ∈ held then findId held fuel (idAfter last) else idAfter last

/-- The next free blob id (R41). At most `held.length` ids are passed over. -/
def nextBlobId (held : List Nat) (last : Nat) : Nat := findId held held.length last

/-- The gap tolerance, (gap_lines + 1) × ldiv counts (R44). -/
def Detect.gapTolerance (t : Detect) : Nat := (t.gapLines + 1) * t.ldiv

/-- An open blob during the linking of a line: its matching window [w0, w1] and what it has received in this line (R44, R46). -/
structure Work where
  blob : Blob
  w0 : Nat
  w1 : Nat
  got : Option (Nat × Nat)
  deriving DecidableEq, Repr

/-- A blob as linking finds it: its window is its extent. -/
def Work.ofBlob (b : Blob) : Work := { blob := b, w0 := b.x0, w1 := b.x1, got := none }

/-- A run matches an open blob (R44). -/
def Work.matchesRun (t : Detect) (stamp : Pos) (r : Run) (w : Work) : Bool :=
  decide (w.blob.polarity = r.polarity) && decide (dist w.blob.last stamp ≤ t.gapTolerance)
    && decide (r.first ≤ w.w1 + t.joinCols) && decide (w.w0 ≤ r.last + t.joinCols)

/-- The range that covers an optional range and another. -/
def coverCols (o : Option (Nat × Nat)) (a b : Nat) : Nat × Nat :=
  match o with
  | none => (a, b)
  | some (x, y) => (min x a, max y b)

/-- The union of two optional ranges. -/
def unionCols (o p : Option (Nat × Nat)) : Option (Nat × Nat) :=
  match p with
  | none => o
  | some (a, b) => some (coverCols o a b)

/-- A run is added to a blob (R46). The extent is replaced at the end of the line (`Work.finish`). -/
def Work.addRun (stamp : Pos) (r : Run) (w : Work) : Work :=
  let b := w.blob
  { blob :=
      { b with
        lines := if w.got.isNone then satAdd max24 b.lines 1 else b.lines
        last := stamp
        cols := some (coverCols (if b.area = 0 then none else b.cols) r.first r.last)
        area := satAdd max24 b.area (r.last - r.first + 1)
        sum := satAdd max32 b.sum r.sum
        peak := max b.peak r.peak }
    w0 := min w.w0 r.first
    w1 := max w.w1 r.last
    got := some (coverCols w.got r.first r.last) }

/-- The blob that survives a merge of two: the earlier first_pos, then the lower id (R47). -/
def Work.survivor (v w : Work) : Work :=
  if before w.blob.first v.blob.first then w
  else if w.blob.first = v.blob.first ∧ w.blob.id < v.blob.id then w
  else v

/-- The survivor `v` takes the features of an absorbed blob (R47). -/
def Work.absorb (v w : Work) : Work :=
  { blob :=
      { v.blob with
        cols := unionCols (if v.blob.area = 0 then none else v.blob.cols) (if w.blob.area = 0 then none else w.blob.cols)
        area := satAdd max24 v.blob.area w.blob.area
        sum := satAdd max32 v.blob.sum w.blob.sum
        peak := max v.blob.peak w.blob.peak
        lines := max v.blob.lines w.blob.lines
        merged := true }
    w0 := min v.w0 w.w0
    w1 := max v.w1 w.w1
    got := unionCols v.got w.got }

/-- The capacity of the open blob table. -/
def blobCapacity : Nat := 64

/-- A blob created from a run (R45). -/
def Run.newBlob (r : Run) (id : Nat) (stamp : Pos) : Blob where
  id := id
  polarity := r.polarity
  first := stamp
  last := stamp
  x0 := r.first
  x1 := r.last
  cols := some (r.first, r.last)
  area := r.last - r.first + 1
  sum := r.sum
  peak := r.peak
  lines := 1
  merged := false
  continuedFrom := none

/-- The open blob table while a line is linked: its blobs, the last issued id, and whether a run was lost to a full table. -/
structure Linking where
  works : List Work
  lastId : Nat
  lost : Bool
  deriving DecidableEq, Repr

/-- One run is placed: it creates a blob or is lost (R45), extends one (R46), or merges several (R47). `storeIds` are the ids the
flaw store holds. -/
def linkRun (t : Detect) (stamp : Pos) (storeIds : List Nat) (l : Linking) (r : Run) : Linking :=
  match l.works.filter (Work.matchesRun t stamp r) with
  | [] =>
    if l.works.length < blobCapacity then
      let id := nextBlobId (l.works.map (·.blob.id) ++ storeIds) l.lastId
      { l with
        works := l.works ++ [{ blob := r.newBlob id stamp, w0 := r.first, w1 := r.last, got := some (r.first, r.last) }]
        lastId := id }
    else { l with lost := true }
  | w :: ws =>
    let v := ws.foldl Work.survivor w
    let merged := ((w :: ws).filter fun u => u.blob.id != v.blob.id).foldl Work.absorb v
    { l with
      works := l.works.filterMap fun u =>
        if u.blob.id = v.blob.id then some (merged.addRun stamp r)
        else if u.matchesRun t stamp r then none
        else some u }

/-- At the end of linking, the extent of a blob that received runs is replaced by what it received (R46). -/
def Work.finish (w : Work) : Blob :=
  match w.got with
  | none => w.blob
  | some (a, b) => { w.blob with x0 := a, x1 := b }

/-- A blob is split by length at this line: it received a run and began max_blob_counts or more before the stamp (R49). -/
def Work.splits (t : Detect) (stamp : Pos) (w : Work) : Bool :=
  w.got.isSome && reaches w.blob.first stamp && decide (t.maxBlobCounts ≤ dist w.blob.first stamp)

/-- A blob has gone quiet: last_pos lies more than the gap tolerance before the stamp (R48). -/
def Blob.quiet (t : Detect) (stamp : Pos) (b : Blob) : Bool :=
  before b.last stamp && decide (t.gapTolerance < dist b.last stamp)

/-- The successor of a split blob (R49). -/
def Blob.successor (t : Detect) (stamp : Pos) (id : Nat) (b : Blob) : Blob :=
  { b with
    id := id, first := ahead stamp t.ldiv, last := stamp, cols := none, area := 0, sum := 0, peak := 0, lines := 0,
    merged := false, continuedFrom := some b.id }

/-- Insertion of a closing blob in ascending order of id; the flag says it closes by splitting. -/
def insertById (x : Blob × Bool) : List (Blob × Bool) → List (Blob × Bool)
  | [] => [x]
  | y :: rest => if x.1.id ≤ y.1.id then x :: y :: rest else y :: insertById x rest

/-- The closing blobs in ascending order of id (R42 step 6, R51). -/
def sortById (l : List (Blob × Bool)) : List (Blob × Bool) := l.foldr insertById []

end Sys2Proof.Machine
end

