-- ==== Sys2Proof/Machine/Bytes.lean ====
section
/-! DEFINITION. Little-endian fields and byte-enables (00_scope, "Memory"). -/

namespace Sys2Proof.Machine

/-- The `n` low bytes of a number, least significant first. -/
def toLe : Nat → Nat → List Byte
  | 0, _ => []
  | n + 1, v => BitVec.ofNat 8 v :: toLe n (v / 256)

/-- The number a little-endian byte list holds. -/
def ofLe : List Byte → Nat
  | [] => 0
  | b :: rest => b.toNat + 256 * ofLe rest

/-- The little-endian field of `n` bytes at offset `o`. -/
def field (bytes : List Byte) (o n : Nat) : Nat := ofLe ((bytes.drop o).take n)

/-- The byte at offset `o`; 0 past the end. -/
def byteAt (bytes : List Byte) (o : Nat) : Nat := (bytes.getD o 0).toNat

/-- `n` bytes of 0: reserved bytes are written as 0 (R168). -/
def reserved (n : Nat) : List Byte := List.replicate n 0

/-- Bit `k` of a byte as a number, 0 or 1. -/
def flagBit (k : Nat) (b : Bool) : Nat := if b then 2 ^ k else 0

/-- A mask of 32 bits that covers the bytes of a word whose enable is set. -/
def byteMask (enables : BitVec 4) : Word :=
  (if enables.getLsbD 0 then 0x000000FF else 0) ||| (if enables.getLsbD 1 then 0x0000FF00 else 0)
    ||| (if enables.getLsbD 2 then 0x00FF0000 else 0) ||| (if enables.getLsbD 3 then 0xFF000000 else 0)

/-- A word with the enabled bytes of `new` in place of its own (R131, R158). -/
def mergeWord (old new : Word) (enables : BitVec 4) : Word :=
  (old &&& ~~~(byteMask enables)) ||| (new &&& byteMask enables)

/-- Word `k` of a beat's data. -/
def beatWord (data : List Byte) (k : Nat) : Word := BitVec.ofNat 32 (field data (4 * k) 4)

/-- The enables of word `k` of a beat. -/
def wordEnables (enables : BitVec 32) (k : Nat) : BitVec 4 := enables.extractLsb' (4 * k) 4

end Sys2Proof.Machine
end

