-- ==== Sys2Proof/Machine/State.lean ====
section
/-! DEFINITION. The state of the FL420, block by block, as plain data, and the state after power-on reset. -/

namespace Sys2Proof.Machine

/-- The Line Capture Unit (chapter 1). `lineQueue` holds the line in analysis first (R11). -/
structure Lcu where
  counter : Pos
  divider : Nat
  fifo : List Pos
  lastStamp : Pos
  assembly : Option Assembly
  lineQueue : List Line
  gaps : List Gap
  resumeArmed : Bool
  ltrig : Bool
  deriving DecidableEq, Repr

/-- The Flaw Detection Unit (chapters 2 and 3). `analysis` is the kind of the line being analysed, none while IDLE; what else R20
fixes for a line cannot change while it is analysed (log entry 9). -/
structure Fdu where
  columns : Cells Nat
  reference : Cells Background
  detect : Detect
  classes : ClassTable
  stagedDetect : Option Detect
  stagedColumns : Option (Cells Nat)
  stagedClasses : Option ClassTable
  stagedReference : Option (Cells Background)
  mode : LineMode
  learnCount : Nat
  analysis : Option LineMode
  scan : Pos
  snapshot : Option Nat
  blobs : List Blob
  lastBlobId : Nat
  store : List Flaw
  deriving DecidableEq, Repr

/-- The Piece Planner (chapters 4 and 5). `piece` is none while IDLE; `raisedAtOnce` says that the counter had reached D when D was computed
(R81), until the expiry is taken or D is computed anew. -/
structure Ppl where
  piece : Option OpenPiece
  lmin : Nat
  lmax : Nat
  grade : GradeTable
  stagedGrade : Option GradeTable
  product : ProductTable
  stagedProduct : Option ProductTable
  nextPiece : Word
  scanSeen : Bool
  raisedAtOnce : Bool
  provisional : Option Grade
  deriving DecidableEq, Repr

/-- The Cut Dispatch Unit (chapter 6). Bridge `b : Fin 4` is the spec's bridge `b + 1`, and so is the loop position; `missTest` and
`timeoutTest` are the tests the last counter event still owes (log entry 4), and `missTol` is the miss_tol that governs the miss tests until
the next counter event (R122). -/
structure Cdu where
  queue : List Entry
  bridges : Vector Bridge 4
  mask : BitVec 4
  newMask : Option (BitVec 4)
  engine : Engine
  loopPos : Nat
  gapRunning : Bool
  gapTime : Nat
  gapLen : Nat
  lckHeld : Bool
  bitPhase : Nat
  tag : Byte
  link : LinkTable
  stagedLink : Option LinkTable
  missTol : Nat
  missTest : Bool
  timeoutTest : Bool
  deriving DecidableEq, Repr

/-- The Memory Transit Unit (chapter 7). -/
structure Tru where
  transit : List TransitEntry
  own : List OwnRequest
  waiting : List OwnRequest
  placing : List OwnRequest
  flight : List InFlight
  controlBase : Nat
  params : TransitTable
  ackShadow : Word
  enableShadow : Word
  stopShadow : Vector Word 3
  share : Nat
  hits : Word
  answers : List Answer
  deriving DecidableEq, Repr

/-- The Shift Accumulator (chapter 9). `expired` is a timer expiry raised and not yet taken (log entry 4). -/
structure Sac where
  counters : ShiftCounters
  number : Word
  startPos : Pos
  openReason : ShiftReason
  running : Bool
  prescaleCount : Nat
  tickCount : Nat
  stepCount : Nat
  params : ShiftTable
  expired : Bool
  deriving DecidableEq, Repr

/-- The Command and Status Unit (chapter 10). -/
structure Csu where
  inspection : Inspection
  slots : Vector Slot 8
  fifo : List (Fin 8)
  running : List Running
  causes : Word
  statusWaiting : Bool
  refreshCount : Nat
  deriving DecidableEq, Repr

/-- The whole part: the queue of commands, PORST_N and the straps, the blocks, the three output channels, and the count of free
values taken. -/
structure State where
  pending : List Instr
  porstLow : Bool
  ctlsel : BitVec 2
  freeCount : Nat
  lcu : Lcu
  fdu : Fdu
  ppl : Ppl
  cdu : Cdu
  tru : Tru
  rou : Vector Channel 3
  sac : Sac
  csu : Csu
  deriving DecidableEq, Repr

/-- Why the machine faults. -/
inductive Fault where
  /-- Raised by no meaning: the spec names no event that stops the part (safe: nothing reaches it). -/
  | stopped
  deriving DecidableEq, Repr

/-- Why the model has no next state. -/
inductive Refusal where
  /-- Raised by `exec` for a command whose meaning is not yet written; at present for none (safe: the model stops). -/
  | notModelled (mnemonic : String)
  deriving DecidableEq, Repr

/-! ### Power-on values -/

/-- The power-on DETECT table (2.7). -/
def Detect.powerOn : Detect where
  linePx := 8192
  spanFirst := 0
  spanLast := 8191
  ldiv := 4
  encEdge := .rising
  polarityEnable := .both
  thDark := 40
  tlDark := 20
  thBright := 40
  tlBright := 20
  minRun := 2
  joinCols := 2
  gapLines := 1
  trackShift := 6
  learnShift := 2
  learnLines := 32
  maxBlobCounts := 65536
  colPitchUm := 400
  countUm := 100

/-- The power-on CLASS table (chapter 3): no rules, every bound and every point 0. -/
def ClassTable.powerOn : ClassTable where
  rules := []
  classes := Vector.replicate 16 { b1 := 0, b2 := 0, b3 := 0, points := Vector.replicate 4 0 }

/-- The power-on GRADE table (4.1). -/
def GradeTable.powerOn : GradeTable where
  trimCols := 0
  edgeCols := 0
  weightCenter := 8
  weightEdge := 8
  weightTrim := 0
  aMax := 0
  bMax := 20
  cMax := 80
  gapCap := .cull
  cutoutPoints := 100
  laneA := 0
  laneB := 1
  laneC := 2
  laneCull := 3
  laneCutout := 3

/-- The power-on PRODUCT table (5.7): product 0 alone is enabled. -/
def ProductTable.powerOn : ProductTable where
  products := (Vector.replicate 8 { length := 30000, floor := .c, enabled := false }).set 0
    { length := 30000, floor := .c, enabled := true }
  minStrip := 2000
  cutClear := 50
  settle := 2000

/-- The power-on LINK table (6.7). -/
def LinkTable.powerOn : LinkTable where
  mask := 0
  stationOffset := 180000
  lead := 2500
  issueMargin := 1500
  missTol := 400
  cutTimeout := 40000
  linkDiv := 250
  stretchLimit := 64
  pollGap := 1000

/-- The power-on TRANSIT table (7.6). -/
def TransitTable.powerOn : TransitTable where
  image := { base := 0, size := 0 }
  protect := Vector.replicate 6 { base := 0, size := 0 }
  ownShare := 4
  refreshLines := 0

/-- The power-on SHIFT table (9.3). -/
def ShiftTable.powerOn : ShiftTable where
  prescale := 50000
  coarse := false
  length := 28800000
  repeats := true
  enabled := false

/-- Every open-shift counter 0 (R155, R157). -/
def ShiftCounters.zero : ShiftCounters where
  grades := Vector.replicate 4 0
  outcomes := Vector.replicate 4 0
  cutoutPieces := 0
  cutoutLength := 0
  belowFloor := 0
  forced := 0
  manual := 0
  flaws := Vector.replicate 16 0
  lines := 0
  lost := Vector.replicate 5 0
  lostLength := Vector.replicate 5 0
  extrapolated := 0
  bridgeFaults := Vector.replicate 4 0
  bridgeMisses := Vector.replicate 4 0
  recordsDropped := Vector.replicate 3 0
  protectedBeats := 0

/-- A channel after power-on reset (chapter 8, R149). -/
def Channel.powerOn : Channel where
  queue := []
  nextSeq := 1
  produced := 0
  written := 0
  dropped := 0
  state := .stopped
  table := 0
  autoRestart := false
  restart := none
  index := 0
  entry := none
  remaining := 0
  activity := .none
  pendingOp := .none

/-- A bridge after power-on reset (R124): the last report is status READY, kind 1 in bits 7:4 (11.7), with tag 0. -/
def Bridge.powerOn : Bridge where
  state := .disabled
  misses := 0
  lastStatus := 0x10
  lastTag := 0
  faultCode := 0xFF

/-- A command slot after power-on reset (R166). -/
def Slot.powerOn : Slot where
  copy := Vector.replicate 6 0
  state := .free
  command := { code := 0, sequence := 0, arg1 := 0, arg2 := 0, arg3 := 0, arg4 := 0, arg5 := 0 }
  overrun := false

/-- The base of the control window for a strap value (00_scope, "Pins and Straps"). -/
def strapBase (ctlsel : BitVec 2) : Nat :=
  match ctlsel.toNat with
  | 0 => 0x0000100000
  | 1 => 0x0040000000
  | 2 => 0x0800000000
  | _ => 0x0FFFF00000

/-- The part right after a power-on reset with the straps at `ctlsel` (R166 and the table at the head of each chapter). -/
def State.powerOn (ctlsel : BitVec 2) : State where
  pending := []
  porstLow := false
  ctlsel := ctlsel
  freeCount := 0
  lcu :=
    { counter := 0, divider := Detect.powerOn.ldiv, fifo := [], lastStamp := 0, assembly := none, lineQueue := [], gaps := [],
      resumeArmed := false, ltrig := false }
  fdu :=
    { columns := [], reference := [], detect := Detect.powerOn, classes := ClassTable.powerOn, stagedDetect := none,
      stagedColumns := none, stagedClasses := none, stagedReference := none, mode := .run, learnCount := 0, analysis := none,
      scan := 0, snapshot := none, blobs := [], lastBlobId := 0, store := [] }
  ppl :=
    { piece := none, lmin := 30000, lmax := 30000, grade := GradeTable.powerOn, stagedGrade := none,
      product := ProductTable.powerOn, stagedProduct := none, nextPiece := 1, scanSeen := false, raisedAtOnce := false,
      provisional := none }
  cdu :=
    { queue := [], bridges := Vector.replicate 4 Bridge.powerOn, mask := 0, newMask := none, engine := .idle, loopPos := 0,
      gapRunning := false, gapTime := 0, gapLen := 0, lckHeld := false, bitPhase := 0, tag := 0, link := LinkTable.powerOn,
      stagedLink := none, missTol := LinkTable.powerOn.missTol, missTest := false, timeoutTest := false }
  tru :=
    { transit := [], own := [], waiting := [], placing := [], flight := [], controlBase := strapBase ctlsel,
      params := TransitTable.powerOn, ackShadow := 0, enableShadow := 0, stopShadow := Vector.replicate 3 0, share := 0, hits := 0,
      answers := [] }
  rou := Vector.replicate 3 Channel.powerOn
  sac :=
    { counters := ShiftCounters.zero, number := 1, startPos := 0, openReason := .reset, running := false, prescaleCount := 0,
      tickCount := 0, stepCount := 0, params := ShiftTable.powerOn, expired := false }
  csu :=
    { inspection := .off, slots := Vector.replicate 8 Slot.powerOn, fifo := [], running := [], causes := 0, statusWaiting := false,
      refreshCount := 0 }

/-- The machine right after reset. The spec leaves the straps to the board: the value 0 is a DESIGN CHOICE (log entry 2);
`powerOnReset` gives every other. -/
def State.reset : State := State.powerOn 0

end Sys2Proof.Machine
end

