-- ==== Sys2Proof/Machine/Formats.lean ====
section
/-! DEFINITION. The byte layouts the part writes: the records of 11.5, their lengths and queue depths (chapter 8), and the codes of
11.2 to 11.5. -/

namespace Sys2Proof.Machine

/-- Grades are coded 0 to 3 (11.3, 11.5). -/
def Grade.code : Grade → Fin 4
  | .a => 0
  | .b => 1
  | .c => 2
  | .cull => 3

/-- Outcomes are coded 0 to 3 (11.5). -/
def PieceOutcome.code : PieceOutcome → Fin 4
  | .cut => 0
  | .missed => 1
  | .faulted => 2
  | .abandoned => 3

/-- Zones are coded 0 to 2 (11.5). -/
def Zone.code : Zone → Nat
  | .center => 0
  | .edge => 1
  | .trim => 2

/-- Shift reasons are coded 0 to 2 (11.5). -/
def ShiftReason.code : ShiftReason → Nat
  | .reset => 0
  | .timer => 1
  | .command => 2

/-- Inspection states are coded 0 to 3 (11.3). -/
def Inspection.code : Inspection → Nat
  | .off => 0
  | .learn => 1
  | .run => 2
  | .stopping => 3

/-- Bridge states are coded 0 to 5 (11.3). -/
def BridgeState.code : BridgeState → Nat
  | .disabled => 0
  | .offline => 1
  | .idle => 2
  | .busy _ _ => 3
  | .notReady => 4
  | .fault => 5

/-- Channel states are coded 0 to 5 (11.3). -/
def ChannelState.code : ChannelState → Nat
  | .stopped => 0
  | .active => 1
  | .held => 2
  | .paused => 3
  | .ended => 4
  | .fault => 5

/-- Status codes (11.2). -/
def Status.code : Status → Nat
  | .ok => 0
  | .badState => 1
  | .badArg => 2
  | .infeasible => 3
  | .tableInvalid => 4
  | .badCommand => 5

/-- The loss causes in the order of 11.3. -/
def LossCause.index : LossCause → Fin 5
  | .triggerOverrun => 0
  | .lineBreak => 1
  | .analysisOverrun => 2
  | .blobTableFull => 3
  | .flawStoreFull => 4

/-- An absent grade, product or fault code is written as 0xFF (R168). -/
def absentCode : Nat := 0xFF

/-- The fault code NONE (R168, R171). -/
def noFaultCode : Byte := 0xFF

/-- The fault code TIMEOUT (R171). -/
def timeoutCode : Byte := 0x80

/-- The flaw record, 32 bytes (11.5). -/
def FlawRecord.bytes (seq : Word) (r : FlawRecord) : List Byte :=
  let f := r.flaw
  toLe 4 seq.toNat ++ toLe 4 r.piece.toNat ++ toLe 2 f.id
    ++ toLe 1 (f.cls.val + 16 * f.band.val + 64 * f.zone.code)
    ++ toLe 1 (flagBit 0 (decide (f.polarity = .bright)) + flagBit 1 f.merged + flagBit 2 f.continuedFrom.isSome
        + flagBit 3 f.split + flagBit 4 f.cutThrough + flagBit 5 f.truncated + flagBit 6 f.remainderOf.isSome)
    ++ toLe 4 f.first.toNat ++ toLe 4 f.stop.toNat ++ toLe 2 f.minCol ++ toLe 2 f.maxCol ++ toLe 3 f.area ++ toLe 1 f.points
    ++ toLe 2 (f.continuedFrom.getD 0) ++ toLe 2 ((f.remainderOf.getD 0).toNat % 65536)

/-- The piece record, 64 bytes (11.5). -/
def PieceRecord.bytes (seq : Word) (r : PieceRecord) : List Byte :=
  let p := r.piece
  toLe 4 seq.toNat ++ toLe 4 p.seq.toNat ++ toLe 4 p.start.toNat ++ toLe 4 p.stop.toNat ++ toLe 4 p.fire.toNat
    ++ toLe 4 r.counter.toNat ++ toLe 4 p.uninspected ++ toLe 2 p.points ++ toLe 2 p.flawCount
    ++ toLe 1 ((p.product.map Fin.val).getD absentCode) ++ toLe 1 p.grade.code.val ++ toLe 1 p.lane
    ++ toLe 1 r.outcome.code.val
    ++ toLe 1 (flagBit 0 p.cutout + flagBit 1 p.belowFloor + flagBit 2 p.forced + flagBit 3 p.cutThrough + flagBit 4 p.manual)
    ++ toLe 1 (match r.issued with
        | some (b, _, _) => b.val + 1
        | none => 0)
    ++ toLe 1 (match r.issued with
        | some (_, tag, _) => tag.toNat
        | none => 0)
    ++ toLe 1 r.faultCode.toNat
    ++ toLe 4 (match r.issued with
        | some (_, _, issue) => issue.toNat
        | none => 0)
    ++ reserved 20

/-- Counters as 4-byte fields, in order. -/
def counterBytes (l : List Nat) : List Byte := l.flatMap (toLe 4)

/-- The shift report record, 256 bytes (11.5). -/
def ShiftReport.bytes (seq : Word) (r : ShiftReport) : List Byte :=
  let c := r.counters
  toLe 4 seq.toNat ++ toLe 4 r.number.toNat ++ toLe 4 r.startPos.toNat ++ toLe 4 r.endPos.toNat ++ toLe 4 r.stepCount
    ++ toLe 1 r.openReason.code ++ toLe 1 r.closeReason.code ++ toLe 1 (flagBit 0 r.coarse) ++ reserved 1
    ++ counterBytes c.grades.toList ++ counterBytes c.outcomes.toList
    ++ counterBytes [c.cutoutPieces, c.cutoutLength, c.belowFloor, c.forced, c.manual, c.lines, c.extrapolated, c.protectedBeats]
    ++ counterBytes c.flaws.toList ++ counterBytes c.lost.toList ++ counterBytes c.lostLength.toList
    ++ counterBytes c.bridgeFaults.toList ++ counterBytes c.bridgeMisses.toList ++ counterBytes c.recordsDropped.toList
    ++ reserved 20

/-- The bytes of a record (11.5). -/
def Record.bytes (r : Record) : List Byte :=
  match r.body with
  | .flaw b => b.bytes r.seq
  | .piece b => b.bytes r.seq
  | .report b => b.bytes r.seq

/-- The FLAW channel. -/
def chFlaw : Fin 3 := 0

/-- The PIECE channel. -/
def chPiece : Fin 3 := 1

/-- The REPORT channel. -/
def chReport : Fin 3 := 2

/-- A channel's queue depth (chapter 8). -/
def queueDepth (ch : Fin 3) : Nat :=
  match ch.val with
  | 0 => 64
  | 1 => 32
  | _ => 4

/-- The beats of a channel's record (chapter 8). -/
def recordBeats (ch : Fin 3) : Nat :=
  match ch.val with
  | 0 => 1
  | 1 => 2
  | _ => 8

end Sys2Proof.Machine
end

