-- ==== Sys2Proof/Machine/Gaps.lean ====
section
/-! DEFINITION. The gap list (R16, R18, R19) and the uninspected length of a candidate (R73). -/

namespace Sys2Proof.Machine

/-- The position at which a gap ends, start + length. -/
def Gap.stop (g : Gap) : Pos := ahead g.start g.length

/-- The gap from `a` to `b`. -/
def Gap.between (a b : Pos) : Gap := { start := a, length := dist a b }

/-- Two ranges overlap or touch (R16). -/
def Gap.touches (g h : Gap) : Bool := reaches g.start h.stop && reaches h.start g.stop

/-- The range from the earlier start to the later end of two ranges. -/
def Gap.hull (g h : Gap) : Gap := Gap.between (earlierOf g.start h.start) (laterOf g.stop h.stop)

/-- Insertion in start order. -/
def gapInsert (g : Gap) : List Gap → List Gap
  | [] => [g]
  | h :: rest => if before g.start h.start then g :: h :: rest else h :: gapInsert g rest

/-- Remove every entry the range overlaps or touches and insert the hull of it and them (R16). -/
def gapAbsorb (g : Gap) (gaps : List Gap) : List Gap :=
  gapInsert ((gaps.filter g.touches).foldl Gap.hull g) (gaps.filter fun h => !g.touches h)

/-- The capacity of the gap list. -/
def gapCapacity : Nat := 32

/-- A range is added: merged with what it overlaps or touches, or inserted as it is, or, where it would need a 33rd entry, merged
into the last entry (R16, R18). A range of length 0 is not added. -/
def gapAdd (gaps : List Gap) (g : Gap) : List Gap :=
  if g.length = 0 then gaps
  else if gaps.any g.touches || decide (gaps.length < gapCapacity) then gapAbsorb g gaps
  else
    match gaps.getLast? with
    | none => [g]
    | some l => gapAbsorb (l.hull g) gaps.dropLast

/-- What a commit at `e` leaves of an entry: nothing if it ends at or before `e`, its part from `e` on if it straddles `e` (R19). -/
def Gap.clip (e : Pos) (g : Gap) : Option Gap :=
  if reaches g.stop e then none
  else if before g.start e then some (Gap.between e g.stop)
  else some g

/-- The gap list after a commit at `e` (R19). -/
def gapClip (e : Pos) (gaps : List Gap) : List Gap := gaps.filterMap (Gap.clip e)

/-- The length of the entry's part in the first `x` counts from `s` on. -/
def Gap.lengthIn (s : Pos) (x : Nat) (g : Gap) : Nat := offsetIn s x g.stop - offsetIn s x g.start

/-- The uninspected length of [s, e) with the scan position `scan`: the gap length before the later of `s` and `scan`, and
everything from there on (R73). -/
def uninspected (gaps : List Gap) (scan s e : Pos) : Nat :=
  let l := dist s e
  let x := offsetIn s l (laterOf s scan)
  (gaps.map (Gap.lengthIn s x)).sum + (l - x)

end Sys2Proof.Machine
end

