-- ==== Sys2Proof/Machine/Ops.lean ====
section
/-! DEFINITION. The operations every block shares: causes and IRQ (R165), shift counters (R150), gap ranges and losses (R16, R17),
own requests (R132), status writes (R164), record production (R139) and command completion (R160). -/

namespace Sys2Proof.Machine

/-! ### The numbered parts -/

/-- Channel `ch`. -/
def State.channel (s : State) (ch : Fin 3) : Channel := s.rou[ch]

/-- Bridge `b`, the spec's bridge `b + 1`. -/
def State.bridge (s : State) (b : Fin 4) : Bridge := s.cdu.bridges[b]

/-- Command slot `n`. -/
def State.slot (s : State) (n : Fin 8) : Slot := s.csu.slots[n]

/-- The stop word shadow of channel `ch`. -/
def State.stopWord (s : State) (ch : Fin 3) : Word := s.tru.stopShadow[ch]

/-! ### Own requests, the status write and causes -/

/-- The bit of a cause in the cause word (11.1). -/
def Cause.bit : Cause → Nat
  | .cmdDone => 0
  | .shiftClosed => 1
  | .chFlag ch => 2 + ch.val
  | .chStop ch => 5 + ch.val
  | .chEol ch => 8 + ch.val
  | .chFault => 11
  | .pieceMissed => 12
  | .bridgeFault => 13
  | .recordDrop => 14
  | .protectHit => 15
  | .lineLoss => 16

/-- The bits of the 17 causes (11.1; bits 17 to 31 are reserved). -/
def causeBits : Word := 0x0001FFFF

/-- A producer places an own request at this event; the order of R132 is applied when the event ends (`State.placeAll`). -/
def State.place (r : OwnRequest) (s : State) : State := { s with tru.placing := s.tru.placing ++ [r] }

/-- The own write of the status block (R164); its bytes are taken at the grant. -/
def statusRequest (base : Nat) : OwnRequest := { purpose := .status, kind := .write, addr := base, beats := 8, data := [] }

/-- A status write is requested: placed if none is waiting, else served by the one that waits (R164). -/
def State.requestStatus (s : State) : State :=
  if s.csu.statusWaiting then s
  else { s with csu.statusWaiting := true }.place (statusRequest s.tru.controlBase)

/-- The cause word takes a value; where that changes it, a status write is requested (R164). -/
def State.setCauses (w : Word) (s : State) : State :=
  if w = s.csu.causes then s else { s with csu.causes := w }.requestStatus

/-- A cause is set; setting one already set changes nothing (R165). -/
def State.raise (c : Cause) (s : State) : State := s.setCauses (s.csu.causes ||| BitVec.ofNat 32 (2 ^ c.bit))

/-- IRQ: some cause is set whose bit is set in the event enable shadow (R165); low while PORST_N is low (R166). -/
def State.irq (s : State) : Bool := !s.porstLow && decide (s.csu.causes &&& s.tru.enableShadow ≠ 0)

/-! ### Shift counters -/

/-- The open-shift counters change (R150). -/
def State.count (f : ShiftCounters → ShiftCounters) (s : State) : State := { s with sac.counters := f s.sac.counters }

/-- One counter of an array increases by `n`, saturating at 2^32 − 1 (R150). -/
def bump {n : Nat} (v : Vector Nat n) (i : Fin n) (k : Nat) : Vector Nat n := v.set i (satAdd max32 v[i] k)

/-! ### Gap ranges -/

/-- The range [stamp, stamp + ldiv) of a stamp. -/
def stampRange (stamp : Pos) (ldiv : Nat) : Gap := { start := stamp, length := ldiv }

/-- A range without a loss cause is added to the gap list (R16, R17). -/
def State.addGap (g : Gap) (s : State) : State := { s with lcu.gaps := gapAdd s.lcu.gaps g }

/-- A range with a loss cause is added: it is counted with its length as added, LINE_LOSS is raised, and it enters the gap list
(R17). A range of length 0 is not added (R16). -/
def State.addLoss (c : LossCause) (g : Gap) (s : State) : State :=
  if g.length = 0 then s
  else
    (((s.count fun k =>
        { k with lost := bump k.lost c.index 1, lostLength := bump k.lostLength c.index g.length }).raise .lineLoss).addGap g)

/-! ### The places of an event's own requests -/

/-- The order in which the requests of one event take their places (R132): the CSU's, a result write before a status write, then the
FDU's, then the channels', channel 0 first. -/
def OwnPurpose.rank : OwnPurpose → Nat
  | .result _ _ _ => 0
  | .tableRead => 0
  | .referenceRead => 0
  | .status => 1
  | .snapshot => 2
  | .descriptor ch => 3 + ch.val
  | .record ch => 3 + ch.val

/-- The requests of one event in the order of R132. -/
def rankSorted (l : List OwnRequest) : List OwnRequest :=
  (List.range 6).flatMap fun k => l.filter fun r => r.purpose.rank == k

/-- The capacity of the own-request queue. -/
def ownCapacity : Nat := 32

/-- The requests of the event take their places, or come to wait behind those that wait already (R132). What the work is that waits with
them is a DESIGN CHOICE (log entry 10): only what needs the waiting request. While a result write or a snapshot write waits, the next
command may begin and analysis goes on. -/
def State.placeAll (s : State) : State :=
  let all := rankSorted s.tru.placing
  let room := if s.tru.waiting.isEmpty then ownCapacity - s.tru.own.length else 0
  { s with
    tru.own := s.tru.own ++ all.take room
    tru.waiting := s.tru.waiting ++ all.drop room
    tru.placing := [] }

/-! ### Records -/

/-- The channel `ch` changes. -/
def State.onChannel (ch : Fin 3) (f : Channel → Channel) (s : State) : State := { s with rou := s.rou.set ch (f (s.channel ch)) }

/-- A record is dropped: RECORD_DROP is the caller's (R139, R148). -/
def State.countDrop (ch : Fin 3) (s : State) : State :=
  s.count fun k => { k with recordsDropped := bump k.recordsDropped ch 1 }

/-- A producer hands a record to its channel: it takes the next sequence number, is counted as produced, and is queued, or dropped
with RECORD_DROP when the queue is full (R139). -/
def State.produce (ch : Fin 3) (body : RecordBody) (s : State) : State :=
  let c := s.channel ch
  if c.queue.length < queueDepth ch then
    s.onChannel ch fun c =>
      { c with queue := c.queue ++ [{ seq := c.nextSeq, body := body }], nextSeq := nextSequence c.nextSeq, produced := c.produced + 1 }
  else
    ((s.onChannel ch fun c =>
        { c with nextSeq := nextSequence c.nextSeq, produced := c.produced + 1, dropped := c.dropped + 1 }).countDrop ch).raise
      .recordDrop

/-- A piece takes its outcome: its record is produced and it is counted by grade, outcome and flags, in the shift open now (R104,
R150). -/
def State.pieceOutcome (p : Piece) (o : PieceOutcome) (issued : Option (Fin 4 × Byte × Pos)) (faultCode : Byte) (s : State) : State :=
  let s := s.produce chPiece
    (.piece { piece := p, outcome := o, counter := s.lcu.counter, issued := issued, faultCode := faultCode })
  let s := s.count fun k =>
    { k with
      grades := bump k.grades p.grade.code 1
      outcomes := bump k.outcomes o.code 1
      cutoutPieces := if p.cutout then satAdd max32 k.cutoutPieces 1 else k.cutoutPieces
      cutoutLength := if p.cutout then satAdd max32 k.cutoutLength (dist p.start p.stop) else k.cutoutLength
      belowFloor := if p.belowFloor then satAdd max32 k.belowFloor 1 else k.belowFloor
      forced := if p.forced then satAdd max32 k.forced 1 else k.forced
      manual := if p.manual then satAdd max32 k.manual 1 else k.manual }
  match o with
  | .missed => s.raise .pieceMissed
  | .faulted => s.raise .bridgeFault
  | .cut => s
  | .abandoned => s

/-! ### Commands -/

/-- The offset of command slot `n` in the control window (10.1). -/
def slotOffset (n : Fin 8) : Nat := 0x100 + 32 * n.val

/-- The slot `n` changes. -/
def State.onSlot (n : Fin 8) (f : Slot → Slot) (s : State) : State := { s with csu.slots := s.csu.slots.set n (f (s.slot n)) }

/-- The result word: code echo, sequence echo, status, overrun flag (11.2). -/
def resultWord (c : Command) (st : Status) (overrun : Bool) : Word :=
  BitVec.ofNat 32 (c.code.toNat + 256 * c.sequence.toNat + 65536 * st.code + 16777216 * flagBit 0 overrun)

/-- A command completes: its result write is placed, its overrun flag cleared, its slot FREE, CMD_DONE raised (R160). -/
def State.complete (n : Fin 8) (st : Status) (value : Word) (s : State) : State :=
  let slot := s.slot n
  let s := s.place
    { purpose := .result n value (resultWord slot.command st slot.overrun), kind := .write,
      addr := s.tru.controlBase + slotOffset n, beats := 1, data := [] }
  let s := s.onSlot n fun x => { x with state := .free, overrun := false }
  let s := { s with csu.running := s.csu.running.filter fun r => r.slot != n }
  s.raise .cmdDone

/-- The phase of a running command changes. -/
def State.setPhase (n : Fin 8) (p : Phase) (s : State) : State :=
  { s with csu.running := s.csu.running.map fun r => if r.slot = n then { r with phase := p } else r }

/-- The slot of the first running command whose phase is as `f` says. -/
def State.runningWith (f : Phase → Bool) (s : State) : Option (Fin 8) :=
  (s.csu.running.find? fun r => f r.phase).map (·.slot)

/-- The running command whose phase is as `f` says, if there is one, completes with OK and `value`. -/
def State.completeWith (f : Phase → Bool) (value : Word) (s : State) : State :=
  match s.runningWith f with
  | some n => s.complete n .ok value
  | none => s

end Sys2Proof.Machine
end

