-- ==== Sys2Proof/Machine/Planner.lean ====
section
/-! DEFINITION. The piece planner: grading (R66 to R77), deadline and feasibility (R78 to R82), decision procedure (R83 to R91), commit
(R92 to R95), with the operations of the flaw store and the blob table at a cut (R61, R62). -/

namespace Sys2Proof.Machine

/-! ### Geometry -/

/-- The fire position of a cut at `e` (R80). -/
def State.firePos (s : State) (e : Pos) : Pos := behind (ahead e s.cdu.link.stationOffset) s.cdu.link.lead

/-- A candidate end is feasible: its fire position lies issue_margin to 2^31 − 1 after the counter (R80). -/
def State.feasible (s : State) (e : Pos) : Bool :=
  decide (s.cdu.link.issueMargin ≤ dist s.lcu.counter (s.firePos e)) && decide (dist s.lcu.counter (s.firePos e) < 2 ^ 31)

/-- The deadline of a piece that starts at `p` (R81). -/
def State.deadlineOf (s : State) (p : Pos) : Pos := behind (s.firePos (ahead p s.ppl.lmin)) s.cdu.link.issueMargin

/-- The open piece starts at `p`: its deadline is computed and armed, and an expiry is raised at once if the counter has already reached
it (R81). -/
def State.armAt (p : Pos) (s : State) : State :=
  { s with
    ppl.piece := some { start := p, deadline := s.deadlineOf p }
    ppl.raisedAtOnce := reaches (s.deadlineOf p) s.lcu.counter }

/-- The deadline of the open piece, if there is one, is computed anew (R81). -/
def State.armDeadline (s : State) : State :=
  match s.ppl.piece with
  | some p => s.armAt p.start
  | none => s

/-- The planner becomes OPEN with a piece that starts at `p`, its deadline armed (R78). -/
def State.openPiece (p : Pos) (seen : Bool) (s : State) : State := { s with ppl.scanSeen := seen }.armAt p

/-- A deadline expiry is raised: the planner is OPEN and the counter has reached D (R81). -/
def State.expiryRaised (s : State) : Bool := s.ppl.piece.any fun p => reaches p.deadline s.lcu.counter

/-- An expiry that was raised at once, when D was computed, has not been taken yet: it is taken when that event has ended (R81). -/
def State.expiryOwed (s : State) : Bool := s.ppl.raisedAtOnce && s.expiryRaised

/-! ### Tables of the planner -/

/-- The products that are enabled, with their indices, in table order. -/
def ProductTable.enabledProducts (t : ProductTable) : List (Fin 8 × Product) :=
  (List.finRange 8).filterMap fun i => if t.products[i].enabled then some (i, t.products[i]) else none

/-- The lengths of the enabled products. -/
def ProductTable.lengths (t : ProductTable) : List Nat := t.enabledProducts.map fun p => p.2.length

/-- Lmin of a list of lengths (R79). -/
def shortest : List Nat → Nat
  | [] => 0
  | n :: rest => rest.foldl min n

/-- A staged GRADE and PRODUCT table take effect; Lmin, Lmax and D are recomputed with the PRODUCT table (R65, R79, R99). -/
def State.takePlannerTables (s : State) : State :=
  let s := match s.ppl.stagedGrade with
    | some g => { s with ppl.grade := g, ppl.stagedGrade := none }
    | none => s
  match s.ppl.stagedProduct with
  | some t =>
    { s with
      ppl.product := t, ppl.stagedProduct := none, ppl.lmin := shortest t.lengths, ppl.lmax := t.lengths.foldl max 0 }.armDeadline
  | none => s

/-! ### Grading -/

/-- The scan position used in grading (R72). -/
def State.gradingScan (s : State) (start : Pos) : Pos := if s.ppl.scanSeen then s.fdu.scan else start

/-- The stored flaws that a commit at `e` assigns: those that end at or before `e` and those that run across it (R61, R67). -/
def Flaw.countedAt (e : Pos) (f : Flaw) : Bool := reaches f.stop e || (before f.first e && before e f.stop)

/-- The provisional flaws of the open blobs against `e`, in creation order (R60, R68). -/
def State.provisionals (s : State) (e : Pos) (truncated : Bool) : List Flaw :=
  (s.fdu.blobs.filter (Blob.provisionalAt e)).map
    (Blob.provisional s.fdu.detect s.fdu.classes s.ppl.grade e truncated)

/-- The flaws a grading of a candidate that ends at `e` counts (R67, R68). -/
def State.countedFlaws (s : State) (withBlobs : Bool) (e : Pos) : List Flaw :=
  s.fdu.store.filter (Flaw.countedAt e) ++ if withBlobs then s.provisionals e false else []

/-- The points of flaws, saturating at 65535 (R69). -/
def pointsOf (l : List Flaw) : Nat := min 65535 ((l.map Flaw.points).sum)

/-- The band grade (R71). -/
def GradeTable.bandGrade (g : GradeTable) (disqualified : Bool) (points : Nat) : Grade :=
  if disqualified then .cull
  else if points ≤ g.aMax then .a
  else if points ≤ g.bMax then .b
  else if points ≤ g.cMax then .c
  else .cull

/-- The worse of two grades (00_scope, "Grades"). -/
def Grade.worse (g h : Grade) : Grade := if g.code < h.code then h else g

/-- A grade is at least `x`: equal to it or better (00_scope, "Grades"). -/
def Grade.atLeast (x g : Grade) : Bool := decide (g.code ≤ x.code)

/-- The grading of [start, e) (R66 to R74). -/
def State.grading (s : State) (withBlobs : Bool) (start e : Pos) : Grading :=
  let flaws := s.countedFlaws withBlobs e
  let p := pointsOf flaws
  let d := flaws.any Flaw.disqualifying
  let u := uninspected s.lcu.gaps (s.gradingScan start) start e
  let band := s.ppl.grade.bandGrade d p
  { points := p, disqualified := d, uninspected := u, count := flaws.length,
    grade := if u = 0 then band else band.worse s.ppl.grade.gapCap }

/-- The provisional grade is computed over [S, X) (R77). -/
def State.computeProvisional (s : State) : State :=
  { s with
    ppl.provisional :=
      match s.ppl.piece with
      | none => none
      | some p =>
        let x := s.gradingScan p.start
        if before p.start x then some (s.grading true p.start x).grade else none }

/-! ### The decision procedure -/

/-- The mode of a commit: a normal or a forced decision, or a manual cut. -/
inductive CommitMode where
  | normal
  | forced
  | manual
  deriving DecidableEq, Repr

/-- The mode grades with open blobs: forced and manual commits do (R75). -/
def CommitMode.withBlobs : CommitMode → Bool
  | .normal => false
  | .forced => true
  | .manual => true

/-- A flaw from `first` to `stop` straddles `e` (R84). -/
def straddles (clear : Nat) (e first stop : Pos) : Bool := before first (ahead e clear) && before (behind e clear) stop

/-- The extents that R84 tests: every stored flaw and every open blob of area other than 0. -/
def State.extents (s : State) : List (Pos × Pos) :=
  s.fdu.store.map (fun f => (f.first, f.stop))
    ++ (s.fdu.blobs.filter fun b => decide (b.area ≠ 0)).map fun b => (b.first, b.stop s.fdu.detect.ldiv)

/-- Some flaw straddles `e` (R84). -/
def State.straddled (s : State) (e : Pos) : Bool :=
  s.extents.any fun x => straddles s.ppl.product.cutClear e x.1 x.2

/-- What the decision procedure has chosen to commit. -/
structure Choice where
  stop : Pos
  product : Option (Fin 8)
  cutout : Bool
  belowFloor : Bool
  deriving DecidableEq, Repr

/-- The product step (R85). -/
def State.productStep (s : State) (mode : CommitMode) (start : Pos) : Option Choice :=
  (s.ppl.product.enabledProducts.find? fun p =>
      let e := ahead start p.2.length
      s.feasible e && !s.straddled e && Grade.atLeast p.2.floor (s.grading mode.withBlobs start e).grade).map
    fun p => { stop := ahead start p.2.length, product := some p.1, cutout := false, belowFloor := false }

/-- A candidate for the cut-out flaw: where it begins, its id, its end and whether it qualifies (R86). -/
structure CutoutFlaw where
  first : Pos
  id : Nat
  stop : Pos
  deriving DecidableEq, Repr

/-- A flaw qualifies for a cut-out (R86). -/
def State.qualifies (s : State) (start : Pos) (f : Flaw) : Bool :=
  reaches start f.first && before f.first (ahead start s.ppl.lmax)
    && (f.disqualifying || decide (s.ppl.grade.cutoutPoints ≤ f.points))

/-- The flaws searched for a cut-out that qualify: stored ones, and in a forced decision the provisional flaws of open blobs against
S + Lmax, each with the end of its blob (R86, R87). -/
def State.cutoutFlaws (s : State) (mode : CommitMode) (start : Pos) : List CutoutFlaw :=
  (s.fdu.store.filter (s.qualifies start)).map (fun f => { first := f.first, id := f.id, stop := f.stop })
    ++ match mode with
      | .normal => []
      | _ =>
        let e := ahead start s.ppl.lmax
        (s.fdu.blobs.filter fun b =>
            b.provisionalAt e
              && s.qualifies start (b.provisional s.fdu.detect s.fdu.classes s.ppl.grade e false)).map
          fun b => { first := b.first, id := b.id, stop := b.stop s.fdu.detect.ldiv }

/-- Of two cut-out flaws, the one with the earlier first_pos, then the lower id (R86). -/
def CutoutFlaw.pick (v w : CutoutFlaw) : CutoutFlaw :=
  if before w.first v.first then w else if w.first = v.first ∧ w.id < v.id then w else v

/-- X moves past the flaws that straddle it until none does (R87). Each move leaves behind every flaw that straddled, so as many moves
as there are flaws suffice. -/
def settleCut (clear : Nat) (extents : List (Pos × Pos)) : Nat → Pos → Pos
  | 0, x => x
  | fuel + 1, x =>
    match extents.filter fun f => straddles clear x f.1 f.2 with
    | [] => x
    | f :: rest => settleCut clear extents fuel (rest.foldl (fun y g => laterOf y (ahead g.2 clear)) (ahead f.2 clear))

/-- What the cut-out step answers. -/
inductive CutoutAnswer where
  | fallThrough
  | waits
  | commits (c : Choice)
  deriving DecidableEq, Repr

/-- The cut-out step (R86, R87). -/
def State.cutoutStep (s : State) (mode : CommitMode) (start : Pos) : CutoutAnswer :=
  match s.cutoutFlaws mode start with
  | [] => .fallThrough
  | f :: rest =>
    let flaw := rest.foldl CutoutFlaw.pick f
    let clear := s.ppl.product.cutClear
    let x := settleCut clear s.extents s.extents.length
      (laterOf (ahead start s.ppl.product.minStrip) (ahead flaw.stop clear))
    if !s.feasible x then .fallThrough
    else if mode = .normal ∧ s.fdu.blobs.any (fun b => before b.first x) then .waits
    else .commits { stop := x, product := none, cutout := true, belowFloor := false }

/-- The fallback of a normal decision (R88): none is to wait. -/
def State.normalFallback (s : State) (start : Pos) : Option Choice :=
  (s.ppl.product.enabledProducts.find? fun p =>
      let e := ahead start p.2.length
      s.feasible e && !s.straddled e).map
    fun p => { stop := ahead start p.2.length, product := some p.1, cutout := false, belowFloor := true }

/-- The late cut (R89). -/
def State.lateCut (s : State) (start : Pos) : Choice where
  stop := laterOf (ahead start s.ppl.product.minStrip)
    (behind (ahead (ahead s.lcu.counter s.cdu.link.issueMargin) s.cdu.link.lead) s.cdu.link.stationOffset)
  product := none
  cutout := false
  belowFloor := false

/-- The fallback of a forced decision (R89). -/
def State.forcedFallback (s : State) (start : Pos) : Choice :=
  match s.ppl.product.enabledProducts.find? fun p => s.feasible (ahead start p.2.length) with
  | some p =>
    let e := ahead start p.2.length
    { stop := e, product := some p.1, cutout := false,
      belowFloor := !Grade.atLeast p.2.floor (s.grading true start e).grade }
  | none => s.lateCut start

/-- A normal decision: what it commits, or none to wait (R85 to R88). -/
def State.normalDecision (s : State) (start : Pos) : Option Choice :=
  match s.productStep .normal start with
  | some c => some c
  | none =>
    match s.cutoutStep .normal start with
    | .commits c => some c
    | .waits => none
    | .fallThrough => s.normalFallback start

/-- A forced decision always commits (R85 to R89). -/
def State.forcedDecision (s : State) (start : Pos) : Choice :=
  match s.productStep .forced start with
  | some c => c
  | none =>
    match s.cutoutStep .forced start with
    | .commits c => c
    | .waits => s.forcedFallback start
    | .fallThrough => s.forcedFallback start

/-! ### The collections at a cut -/

/-- The assigned copy of a flaw at a cut at `e` (R61). -/
def Flaw.copyAt (e : Pos) (f : Flaw) : Flaw := if before e f.stop then { f with stop := e, cutThrough := true } else f

/-- What a cut at `e` for piece `seq` leaves of a flaw in the store (R61). -/
def Flaw.remainderAt (e : Pos) (seq : Word) (f : Flaw) : Option Flaw :=
  if reaches f.stop e then none
  else if before f.first e then some { f with first := e, cutThrough := true, remainderOf := some seq }
  else some f

/-- The truncated blob continues with a new id (R62). -/
def Blob.continueAt (e : Pos) (id : Nat) (b : Blob) : Blob :=
  { b with
    id := id, continuedFrom := some b.id, merged := false, first := e, cols := none, area := 0, sum := 0, peak := 0, lines := 0 }

/-- The open blobs are truncated at `e`, in creation order, each continuation taking the next free id; `done` are those dealt with
(R41, R62). A blob of area 0 that begins before `e` only has its first_pos moved. -/
def truncateBlobs (e : Pos) (storeIds : List Nat) : List Blob → List Blob → Nat → List Blob × Nat
  | done, [], last => (done, last)
  | done, b :: rest, last =>
    if before b.first e then
      if b.area = 0 then truncateBlobs e storeIds (done ++ [{ b with first := e }]) rest last
      else
        let id := nextBlobId ((done ++ b :: rest).map Blob.id ++ storeIds) last
        truncateBlobs e storeIds (done ++ [b.continueAt e id]) rest id
    else truncateBlobs e storeIds (done ++ [b]) rest last

/-- The flaws a commit assigns: those of the store in store order, then the truncated flaws (R61, R62, R93). -/
def State.assigned (s : State) (mode : CommitMode) (e : Pos) : List Flaw :=
  (s.fdu.store.filter (Flaw.countedAt e)).map (Flaw.copyAt e) ++ if mode.withBlobs then s.provisionals e true else []

/-- The store, the blob table and the gap list after a commit at `e` of piece `seq` (R93). -/
def State.changeCollections (s : State) (mode : CommitMode) (e : Pos) (seq : Word) : State :=
  let store := s.fdu.store.filterMap (Flaw.remainderAt e seq)
  let (blobs, last) :=
    if mode.withBlobs then truncateBlobs e (store.map Flaw.id) [] s.fdu.blobs s.fdu.lastBlobId
    else (s.fdu.blobs, s.fdu.lastBlobId)
  { s with fdu.store := store, fdu.blobs := blobs, fdu.lastBlobId := last, lcu.gaps := gapClip e s.lcu.gaps }

/-- One assigned flaw is recorded and counted under its class (R95). -/
def State.recordFlaw (seq : Word) (s : State) (f : Flaw) : State :=
  (s.produce chFlaw (.flaw { piece := seq, flaw := f })).count fun k => { k with flaws := bump k.flaws f.cls 1 }

/-! ### Commit -/

/-- The capacity of the cut queue (R90). -/
def cutQueueCapacity : Nat := 16

/-- The lane of a committed piece (R76). -/
def GradeTable.lane (g : GradeTable) (cutout : Bool) (grade : Grade) : Nat :=
  if cutout then g.laneCutout
  else
    match grade with
    | .a => g.laneA
    | .b => g.laneB
    | .c => g.laneC
    | .cull => g.laneCull

/-- A commit at `e` gives a cut-through copy or a truncated flaw (R92, flag CUT_THROUGH). -/
def State.cutsThrough (s : State) (mode : CommitMode) (e : Pos) : Bool :=
  s.fdu.store.any (fun f => before f.first e && before e f.stop) || (mode.withBlobs && !(s.provisionals e true).isEmpty)

/-- The piece that a commit of [start, c.stop) makes (R92). -/
def State.pieceOf (s : State) (mode : CommitMode) (start : Pos) (c : Choice) : Piece :=
  let g := s.grading mode.withBlobs start c.stop
  let grade := if c.cutout then .cull else g.grade
  { seq := s.ppl.nextPiece, start := start, stop := c.stop, fire := s.firePos c.stop, product := c.product, grade := grade,
    points := g.points, flawCount := g.count, uninspected := g.uninspected, lane := s.ppl.grade.lane c.cutout grade,
    cutout := c.cutout, belowFloor := c.belowFloor, forced := decide (mode = .forced),
    cutThrough := s.cutsThrough mode c.stop,
    manual := decide (mode = .manual) }

/-- A commit of [start, c.stop) (R92 to R95; R90 where the cut queue is full). -/
def State.commit (mode : CommitMode) (start : Pos) (c : Choice) (s : State) : State :=
  let piece := s.pieceOf mode start c
  let flaws := s.assigned mode c.stop
  let full := cutQueueCapacity ≤ s.cdu.queue.length
  let s := { s with ppl.nextPiece := nextSequence s.ppl.nextPiece }.changeCollections mode c.stop piece.seq
  let s := if full then s else { s with cdu.queue := s.cdu.queue ++ [{ piece := piece, state := .waiting false }] }
  let s := flaws.foldl (State.recordFlaw piece.seq) s
  let s := s.armAt c.stop
  if full then s.pieceOutcome piece .missed none noFaultCode else s

/-! ### Checks and events of the planner -/

/-- The normal conditions Settled and Clear (R83). -/
def State.normalConditions (s : State) (start : Pos) : Bool :=
  let x := s.gradingScan start
  reaches start x && decide (s.ppl.lmax + s.ppl.product.settle ≤ dist start x)
    && !s.fdu.blobs.any fun b => before b.first (ahead start (s.ppl.lmax + s.ppl.product.cutClear))

/-- Steps 2 to 4 of the planner check: normal decisions until one waits (R83, R90, R91). Each commit appends a queue entry and a full
queue waits, so 16 commits are the most. -/
def State.checkLoop : Nat → State → State
  | 0, s => s
  | fuel + 1, s =>
    match s.ppl.piece with
    | none => s
    | some p =>
      if s.normalConditions p.start then
        match s.normalDecision p.start with
        | none => s
        | some c =>
          if cutQueueCapacity ≤ s.cdu.queue.length then s
          else State.checkLoop fuel (s.commit .normal p.start c)
      else s

/-- The planner check that follows an analysis end (R83). -/
def State.plannerCheck (s : State) : State :=
  (s.takePlannerTables.checkLoop cutQueueCapacity).computeProvisional

/-- A deadline expiry is taken: the staged tables take effect, and if the counter has reached the D that leaves, a forced decision
commits (R82, R90, R91, R77). -/
def State.expiry (s : State) : State :=
  let s := s.takePlannerTables
  match s.ppl.piece with
  | none => s
  | some p =>
    if s.expiryRaised then
      ((s.commit .forced p.start (s.forcedDecision p.start)).checkLoop cutQueueCapacity).computeProvisional
    else s

/-- Why a manual cut at `e` is refused: IDLE 1, SHORT 2, LATE 3, QUEUE_FULL 4 (R96). -/
def State.manualRefusal (s : State) (e : Pos) : Option Word :=
  match s.ppl.piece with
  | none => some 1
  | some p =>
    if dist p.start e < s.ppl.product.minStrip ∨ 2 ^ 31 ≤ dist p.start e then some 2
    else if !s.feasible e then some 3
    else if cutQueueCapacity ≤ s.cdu.queue.length then some 4
    else none

/-- An accepted manual cut at `e` (R96). -/
def State.manualCommit (e : Pos) (s : State) : State :=
  match s.ppl.piece with
  | none => s
  | some p =>
    ((s.commit .manual p.start { stop := e, product := none, cutout := false, belowFloor := false }).checkLoop
        cutQueueCapacity).computeProvisional

/-- The planner becomes IDLE (R102); the staged tables take effect (R65, R99). -/
def State.plannerIdle (s : State) : State :=
  { s with ppl.piece := none, ppl.scanSeen := false, ppl.raisedAtOnce := false, ppl.provisional := none }.takePlannerTables

end Sys2Proof.Machine
end

