-- ==== Sys2Proof/Machine/Capture.lean ====
section
/-! DEFINITION. Line capture (chapter 1): stamps, line assembly, the line queue, and the taking into effect of the tables of the LCU and
the FDU (R5, R20, R35, R36). -/

namespace Sys2Proof.Machine

/-- Inspection is LEARN or RUN. -/
def State.inspecting (s : State) : Bool := s.csu.inspection == .learn || s.csu.inspection == .run

/-! ### Stamps -/

/-- The edge counts under the enc_edge in force (R1). -/
def EncEdge.counts : EncEdge → Edge → Bool
  | .rising, .lowToHigh => true
  | .rising, .highToLow => false
  | .falling, .lowToHigh => false
  | .falling, .highToLow => true
  | .both, _ => true

/-- The capacity of the trigger FIFO (R3). -/
def fifoCapacity : Nat := 16

/-- A stamp is pushed; on a full FIFO the oldest is removed and lost (R3, R4). -/
def State.pushStamp (p : Pos) (s : State) : State :=
  match s.lcu.fifo with
  | old :: rest =>
    if s.lcu.fifo.length < fifoCapacity then { s with lcu.fifo := s.lcu.fifo ++ [p] }
    else
      { s.addLoss .triggerOverrun (stampRange old s.fdu.detect.ldiv) with lcu.fifo := rest ++ [p] }
  | [] => { s with lcu.fifo := [p] }

/-- The first stamp after START disarms the resume range, which is added up to it if the planner is OPEN (R13). -/
def State.disarmResume (p : Pos) (s : State) : State :=
  if s.lcu.resumeArmed then
    let s := { s with lcu.resumeArmed := false }
    match s.ppl.piece with
    | none => s
    | some o =>
      let r := laterOf o.start s.fdu.scan
      if before r p then s.addGap (Gap.between r p) else s
  else s

/-- A stamp opens a piece while the planner is IDLE (R78). -/
def State.openAtStamp (p : Pos) (s : State) : State :=
  match s.ppl.piece with
  | none => s.openPiece p false
  | some _ => s

/-- A line trigger: one pulse on LTRIG, the divider reloaded, the counter pushed as a stamp (R2), with the resume range disarmed (R13)
and a piece opened (R78). -/
def State.trigger (s : State) : State :=
  let p := s.lcu.counter
  let s := { s with lcu.ltrig := true, lcu.divider := s.fdu.detect.ldiv }
  ((s.pushStamp p).disarmResume p).openAtStamp p

/-- A counted edge has run the divider from 1 to 0 and its trigger is owed (R2, log entry 4). -/
def State.triggerOwed (s : State) : Bool := s.inspecting && s.lcu.divider == 0

/-! ### Tables of the LCU and the FDU -/

/-- A staged DETECT table takes effect; a changed ldiv or enc_edge reloads the divider (R5). -/
def State.takeDetect (s : State) : State :=
  match s.fdu.stagedDetect with
  | none => s
  | some t =>
    let reload := decide (t.ldiv ≠ s.fdu.detect.ldiv) || decide (t.encEdge ≠ s.fdu.detect.encEdge)
    { s with
      fdu.detect := t, fdu.stagedDetect := none
      lcu.divider := if reload then t.ldiv else s.lcu.divider }

/-- A staged COLUMN table, CLASS table and reference take effect (R35, R37, R57). -/
def State.takeColumnsClassReference (s : State) : State :=
  { s with
    fdu.columns := s.fdu.stagedColumns.getD s.fdu.columns, fdu.stagedColumns := none
    fdu.classes := s.fdu.stagedClasses.getD s.fdu.classes, fdu.stagedClasses := none
    fdu.reference := s.fdu.stagedReference.getD s.fdu.reference, fdu.stagedReference := none }

/-- Every staged table of the LCU and the FDU takes effect (R20, R36). -/
def State.takeFduTables (s : State) : State := s.takeDetect.takeColumnsClassReference

/-- The lines of the queue and the line in assembly are lost as line breaks, their ranges measured by `ldiv` (R5). -/
def State.discardLines (ldiv : Nat) (s : State) : State :=
  let stamps := s.lcu.lineQueue.map Line.stamp ++ s.lcu.assembly.toList.map Assembly.stamp
  let s := stamps.foldl (fun s p => s.addLoss .lineBreak (stampRange p ldiv)) s
  { s with lcu.lineQueue := [], lcu.assembly := none, fdu.analysis := none }

/-- Analysis of the line at the head of the queue begins: the staged tables take effect and the line's kind is fixed; where the new
table changes line_px while inspection is not OFF, the lines are discarded instead (R5, R20). -/
def State.beginAnalysis (s : State) : State :=
  match s.lcu.lineQueue with
  | [] => s
  | _ :: _ =>
    let old := s.fdu.detect
    let s := s.takeFduTables
    if s.fdu.detect.linePx ≠ old.linePx ∧ s.csu.inspection ≠ .off then s.discardLines old.ldiv
    else { s with fdu.analysis := some s.fdu.mode }

/-! ### Assembly -/

/-- The slot that begins at an address, if one does (R6). -/
def State.slotAt (s : State) (addr : Nat) : Option Nat :=
  let w := s.tru.params.image
  let px := s.fdu.detect.linePx
  let k := (addr - w.base) / px
  if w.base ≤ addr ∧ (addr - w.base) % px = 0 ∧ k < w.size / px then some k else none

/-- Remove surplus stamps from the head of the FIFO, each lost as a trigger overrun (R4, R8). -/
def State.dropSurplus : List Pos → State → State
  | [], s => { s with lcu.fifo := [] }
  | p :: rest, s =>
    if before s.lcu.lastStamp p then { s with lcu.fifo := p :: rest }
    else State.dropSurplus rest (s.addLoss .triggerOverrun (stampRange p s.fdu.detect.ldiv))

/-- A new line takes a stamp, real or extrapolated; the stamp, the flag and the state (R8). -/
def State.takeStamp (s : State) : Pos × Bool × State :=
  let s := s.dropSurplus s.lcu.fifo
  match s.lcu.fifo with
  | p :: rest => (p, false, { s with lcu.fifo := rest, lcu.lastStamp := p })
  | [] =>
    let p := ahead s.lcu.lastStamp s.fdu.detect.ldiv
    (p, true, { s with lcu.lastStamp := p }.count fun k => { k with extrapolated := satAdd max32 k.extrapolated 1 })

/-- A complete line is offered to the line queue (R11). -/
def State.offerLine (l : Line) (s : State) : State :=
  match s.lcu.lineQueue with
  | [] => { s with lcu.lineQueue := [l] }.beginAnalysis
  | [a] => { s with lcu.lineQueue := [a, l] }
  | _ => s.addLoss .analysisOverrun (stampRange l.stamp s.fdu.detect.ldiv)

/-- A line has received beats: it is complete, or awaits its next beat (R8, R9). -/
def State.assembled (a : Assembly) (s : State) : State :=
  if s.fdu.detect.linePx ≤ a.received * beatBytes then
    { s with lcu.assembly := none }.offerLine
      { stamp := a.stamp, extrapolated := a.extrapolated, slot := a.slot, pixels := a.pixels }
  else { s with lcu.assembly := some a }

/-- An observed beat in NO_LINE: a full beat at a slot start starts a line; any other is ignored (R8). -/
def State.beatInNoLine (addr : Nat) (data : List Byte) (full : Bool) (s : State) : State :=
  match full, s.slotAt addr with
  | true, some k =>
    let (p, extrapolated, s) := s.takeStamp
    s.assembled { slot := k, stamp := p, extrapolated := extrapolated, received := 1, next := addr + beatBytes, pixels := data }
  | _, _ => s

/-- An observed image beat (R7 to R10). -/
def State.imageBeat (addr : Nat) (data : List Byte) (enables : BitVec 32) (s : State) : State :=
  let full := enables == BitVec.allOnes 32
  match s.lcu.assembly with
  | none => s.beatInNoLine addr data full
  | some a =>
    if full && addr == a.next then
      s.assembled { a with received := a.received + 1, next := a.next + beatBytes, pixels := a.pixels ++ data }
    else
      ({ s.addLoss .lineBreak (stampRange a.stamp s.fdu.detect.ldiv) with lcu.assembly := none }).beatInNoLine addr data full

/-! ### STOP and RESET_ENGINE in the LCU -/

/-- STOP in the LCU (R14): the stamps of the FIFO and the line in assembly go to the gap list without a loss. A resume range still
armed is disarmed (R13). -/
def State.stopCapture (s : State) : State :=
  let ldiv := s.fdu.detect.ldiv
  let s := s.lcu.fifo.foldl (fun s p => s.addGap (stampRange p ldiv)) s
  let s := s.lcu.assembly.toList.foldl (fun s a => s.addGap (stampRange a.stamp ldiv)) s
  { s with lcu.fifo := [], lcu.assembly := none, lcu.resumeArmed := false }

/-- RESET_ENGINE in the LCU (R15). -/
def State.resetCapture (s : State) : State :=
  { s with lcu.fifo := [], lcu.lineQueue := [], lcu.gaps := [], lcu.assembly := none, lcu.resumeArmed := false }

end Sys2Proof.Machine
end

