-- ==== Sys2Proof/Machine/Cells.lean ====
section
/-! DEFINITION. The two arrays of 8192 entries, COLUMN and REFERENCE, as lists of the entries that differ from the power-on value
`d`, indices rising. -/

namespace Sys2Proof.Machine

/-- The number of columns of the column and reference tables (chapter 2). -/
def columnCount : Nat := 8192

/-- The entry at index `k`. -/
def Cells.get {α : Type} (d : α) : Cells α → Nat → α
  | [], _ => d
  | (i, v) :: rest, k => if i = k then v else Cells.get d rest k

/-- The `n` entries from index `k` on, for cells whose indices are `k` or more and rise. -/
def Cells.toList {α : Type} (d : α) : Nat → Nat → Cells α → List α
  | _, 0, _ => []
  | k, n + 1, [] => d :: Cells.toList d (k + 1) n []
  | k, n + 1, (i, v) :: rest =>
    if i = k then v :: Cells.toList d (k + 1) n rest else d :: Cells.toList d (k + 1) n ((i, v) :: rest)

/-- The cells of the entries `l` from index `k` on. -/
def Cells.ofList {α : Type} [DecidableEq α] (d : α) : Nat → List α → Cells α
  | _, [] => []
  | k, v :: rest => if v = d then Cells.ofList d (k + 1) rest else (k, v) :: Cells.ofList d (k + 1) rest

/-- The canonical form: indices from `k` on, rising, below `n`, and no entry equal to `d`. -/
def Cells.wfFrom {α : Type} [DecidableEq α] (d : α) (n : Nat) : Nat → Cells α → Bool
  | _, [] => true
  | k, (i, v) :: rest => decide (k ≤ i) && decide (i < n) && decide (v ≠ d) && Cells.wfFrom d n (i + 1) rest

/-- The canonical form of a table of 8192 entries. -/
def Cells.wf {α : Type} [DecidableEq α] (d : α) (c : Cells α) : Bool := Cells.wfFrom d columnCount 0 c

/-- The power-on gain code, which masks a column (R34). -/
def maskedGain : Nat := 63

/-- The power-on background, grey level 128.0 (R38). -/
def powerOnBackground : Background := 0x8000

/-- The gain code of column `c` (R34). -/
def gainOf (t : Cells Nat) (c : Nat) : Nat := Cells.get maskedGain t c

/-- The background of column `c` (R24, R38). -/
def backgroundOf (t : Cells Background) (c : Nat) : Background := Cells.get powerOnBackground t c

end Sys2Proof.Machine
end

