-- ==== Sys2Proof/Machine/Detection.lean ====
section
/-! DEFINITION. The arithmetic of one line: deviation, contrast, candidates, runs and background tracking (R23 to R30). -/

namespace Sys2Proof.Machine

/-- One column of the line in analysis: index, pixel, gain code and background. -/
structure Column where
  index : Nat
  pixel : Byte
  gain : Nat
  background : Background
  deriving DecidableEq, Repr

/-- The column takes part: it lies in the span and is not masked (R23). -/
def Column.takesPart (t : Detect) (c : Column) : Bool :=
  decide (t.spanFirst ≤ c.index) && decide (c.index ≤ t.spanLast) && decide (c.gain ≠ maskedGain)

/-- The deviation 256·p − bg (R24). -/
def Column.deviation (c : Column) : Int := 256 * (c.pixel.toNat : Int) - (c.background.toNat : Int)

/-- `n / d` rounded to the nearest integer, halves away from zero (00_scope, "Rounding"). -/
def roundDiv (n : Int) (d : Nat) : Int := n.sign * (((2 * n.natAbs + d) / (2 * d) : Nat) : Int)

/-- The contrast of a deviation under a gain code, clamped to −255…+255 (R25). -/
def contrastOf (gain : Nat) (d : Int) : Int := max (-255) (min 255 (roundDiv (d * (64 + gain : Nat)) 16384))

/-- The contrast of a column (R25). -/
def Column.contrast (c : Column) : Int := contrastOf c.gain c.deviation

/-- The classification of a contrast: the polarity of a candidate and whether it is strong (R26). -/
def candidateOf (t : Detect) (s : Int) : Option (Polarity × Bool) :=
  if s ≤ -(t.tlDark : Int) ∧ t.polarityEnable ≠ .bright then some (.dark, decide (s ≤ -(t.thDark : Int)))
  else if (t.tlBright : Int) ≤ s ∧ t.polarityEnable ≠ .dark then some (.bright, decide ((t.thBright : Int) ≤ s))
  else none

/-- The classification of a column; one that takes no part is never a candidate (R23, R26). -/
def Column.candidate (t : Detect) (c : Column) : Option (Polarity × Bool) :=
  if c.takesPart t then candidateOf t c.contrast else none

/-- The run of a single column. -/
def Column.newRun (c : Column) (p : Polarity) (strong : Bool) : Run where
  first := c.index
  last := c.index
  polarity := p
  strong := strong
  peak := c.contrast.natAbs
  sum := c.contrast.natAbs

/-- A run with one more column at its end (R28). -/
def Run.extend (r : Run) (c : Column) (strong : Bool) : Run :=
  { r with
    last := c.index
    strong := r.strong || strong
    peak := max r.peak c.contrast.natAbs
    sum := r.sum + c.contrast.natAbs }

/-- The maximal runs of the columns, ascending; `cur` is the run that ends at the column before (R27). -/
def runsFrom (t : Detect) : Option Run → List Column → List Run
  | cur, [] => cur.toList
  | cur, c :: rest =>
    match c.candidate t, cur with
    | none, _ => cur.toList ++ runsFrom t none rest
    | some (p, strong), none => runsFrom t (some (c.newRun p strong)) rest
    | some (p, strong), some r =>
      if r.polarity = p then runsFrom t (some (r.extend c strong)) rest
      else r :: runsFrom t (some (c.newRun p strong)) rest

/-- The width of a run. -/
def Run.width (r : Run) : Nat := r.last - r.first + 1

/-- A run is accepted when it holds a strong candidate and is at least min_run wide (R27). -/
def Run.accepted (t : Detect) (r : Run) : Bool := r.strong && decide (t.minRun ≤ r.width)

/-- The accepted runs of a line's columns in ascending order of first column (R28). -/
def acceptedRuns (t : Detect) (cols : List Column) : List Run := (runsFrom t none cols).filter (Run.accepted t)

/-- The run covers the column. -/
def Run.covers (r : Run) (c : Nat) : Bool := decide (r.first ≤ c) && decide (c ≤ r.last)

/-- bg + floor(d / 2^shift) (R29, R30). -/
def Column.track (shift : Nat) (c : Column) : Background :=
  BitVec.ofInt 16 ((c.background.toNat : Int) + c.deviation / ((2 ^ shift : Nat) : Int))

/-- The background of a column after a line: a LEARN line updates every column that takes part by learn_shift (R30), a RUN line
every column that takes part and lies in no accepted run by track_shift (R29). -/
def Column.after (t : Detect) (mode : LineMode) (runs : List Run) (c : Column) : Background :=
  if c.takesPart t then
    match mode with
    | .learn => c.track t.learnShift
    | .run => if runs.any (Run.covers · c.index) then c.background else c.track t.trackShift
  else c.background

/-- The columns of a line, from index `k` on. -/
def columnsFrom : Nat → List Byte → List Nat → List Background → List Column
  | k, p :: ps, g :: gs, b :: bs =>
    { index := k, pixel := p, gain := g, background := b } :: columnsFrom (k + 1) ps gs bs
  | _, _, _, _ => []

/-- The columns of a line's pixels under the column and reference tables. -/
def columnsOf (gains : Cells Nat) (refs : Cells Background) (pixels : List Byte) : List Column :=
  columnsFrom 0 pixels (Cells.toList maskedGain 0 pixels.length gains) (Cells.toList powerOnBackground 0 pixels.length refs)

/-- The runs a line hands to linking: none for a LEARN line (R28, R30). -/
def lineRuns (t : Detect) (mode : LineMode) (cols : List Column) : List Run :=
  match mode with
  | .learn => []
  | .run => acceptedRuns t cols

/-- The reference table after a line: the line's columns as `Column.after` gives, every other column kept (R23, R29, R30). -/
def referenceAfter (t : Detect) (mode : LineMode) (cols : List Column) (refs : Cells Background) : Cells Background :=
  Cells.ofList powerOnBackground 0
    ((cols.map (Column.after t mode (lineRuns t mode cols))
        ++ (Cells.toList powerOnBackground 0 columnCount refs).drop cols.length).take columnCount)

end Sys2Proof.Machine
end

