-- ==== Sys2Proof/Machine/TableRead.lean ====
section
/-! DEFINITION. Reading and validating tables (11.6, R33, R34, R57, R64, R98, R121, R136, R154, R168 to R170). A reader answers none
where the table is refused for its values. -/

namespace Sys2Proof.Machine

/-- A value brought into a range. -/
def clamp (lo hi v : Nat) : Nat := max lo (min hi v)

/-- enc_edge; an undefined code is read as RISING (R168). -/
def encEdgeOf : Nat → EncEdge
  | 1 => .falling
  | 2 => .both
  | _ => .rising

/-- polarity_enable; an undefined code is read as BOTH (R168). -/
def polarityEnableOf : Nat → PolarityEnable
  | 1 => .dark
  | 2 => .bright
  | _ => .both

/-- The grade coded in bits 1:0. -/
def gradeOf (n : Nat) : Grade :=
  match n % 4 with
  | 0 => .a
  | 1 => .b
  | 2 => .c
  | _ => .cull

/-- DETECT: the layout of 11.6, corrected and refused as R33 and R170 give. -/
def readDetect (b : List Byte) : Option Detect :=
  let linePx := field b 0x20 2
  let spanFirst := field b 0x22 2
  let spanLast := field b 0x24 2
  if linePx < 256 ∨ 8192 < linePx ∨ linePx % 32 ≠ 0 ∨ spanLast < spanFirst ∨ linePx - 1 < spanLast then none
  else
    let thDark := max 1 (byteAt b 0x29)
    let thBright := max 1 (byteAt b 0x2B)
    some
      { linePx := linePx, spanFirst := spanFirst, spanLast := spanLast, ldiv := max 1 (byteAt b 0x26),
        encEdge := encEdgeOf (byteAt b 0x27), polarityEnable := polarityEnableOf (byteAt b 0x28), thDark := thDark,
        tlDark := min thDark (max 1 (byteAt b 0x2A)), thBright := thBright, tlBright := min thBright (max 1 (byteAt b 0x2C)),
        minRun := clamp 1 8 (byteAt b 0x2D), joinCols := min 15 (byteAt b 0x2E), gapLines := min 7 (byteAt b 0x2F),
        trackShift := clamp 1 12 (byteAt b 0x30), learnShift := min 4 (byteAt b 0x31), learnLines := max 1 (byteAt b 0x32),
        maxBlobCounts := clamp 64 1048575 (field b 0x34 4), colPitchUm := clamp 10 2000 (field b 0x38 2),
        countUm := clamp 1 1000 (field b 0x3A 2) }

/-- COLUMN: 8192 gain codes, one above 63 read as 63 (R34). -/
def readColumn (b : List Byte) : Cells Nat :=
  Cells.ofList maskedGain 0 (((b.drop 0x20).take columnCount).map fun x => min 63 x.toNat)

/-- One CLASS rule (11.6); its class number is judged by `readClass`. -/
def readRule (b : List Byte) (r : Nat) : ClassRule :=
  let o := 0x40 + 16 * r
  { cls := Fin.ofNat 16 (byteAt b o), dark := (byteAt b (o + 1)).testBit 0, bright := (byteAt b (o + 1)).testBit 1,
    aspect := byteAt b (o + 2), minPeak := byteAt b (o + 3), minArea := field b (o + 4) 3, minUm := field b (o + 8) 4,
    maxUm := field b (o + 12) 4 }

/-- The bounds and points of one class, the bounds raised to be non-decreasing, b2 before b3 (R57). -/
def readClassEntry (b : List Byte) (k : Nat) : ClassEntry :=
  let o := 0x140 + 12 * k
  let b1 := field b o 4
  let b2 := max b1 (field b (o + 4) 4)
  { b1 := b1, b2 := b2, b3 := max b2 (field b (o + 8) 4),
    points := Vector.ofFn fun i : Fin 4 => byteAt b (0x200 + 4 * k + i.val) }

/-- CLASS: refused for more than 16 rules or a rule with a class above 14 (R57). -/
def readClass (b : List Byte) : Option ClassTable :=
  let n := byteAt b 0x20
  if 16 < n ∨ (List.range n).any (fun r => decide (14 < byteAt b (0x40 + 16 * r))) then none
  else some { rules := (List.range n).map (readRule b), classes := Vector.ofFn fun k : Fin 16 => readClassEntry b k.val }

/-- GRADE, corrected as R64 gives. -/
def readGrade (b : List Byte) : GradeTable :=
  let aMax := field b 0x28 2
  let bMax := max aMax (field b 0x2A 2)
  { trimCols := min 1023 (field b 0x20 2), edgeCols := min 2047 (field b 0x22 2), weightCenter := min 16 (byteAt b 0x24),
    weightEdge := min 16 (byteAt b 0x25), weightTrim := min 16 (byteAt b 0x26), aMax := aMax, bMax := bMax,
    cMax := max bMax (field b 0x2C 2), gapCap := gradeOf (byteAt b 0x2E), cutoutPoints := max 1 (byteAt b 0x27),
    laneA := byteAt b 0x30 % 16, laneB := byteAt b 0x31 % 16, laneC := byteAt b 0x32 % 16, laneCull := byteAt b 0x33 % 16,
    laneCutout := byteAt b 0x34 % 16 }

/-- PRODUCT: refused with no product enabled, min_strip and lengths raised (R98). -/
def readProduct (b : List Byte) : Option ProductTable :=
  let minStrip := max 1 (field b 0x60 3)
  let products : Vector Product 8 := Vector.ofFn fun p : Fin 8 =>
    let o := 0x20 + 8 * p.val
    { length := max minStrip (field b o 3), floor := gradeOf (byteAt b (o + 3)), enabled := (byteAt b (o + 4)).testBit 0 }
  if products.toList.any Product.enabled then
    some { products := products, minStrip := minStrip, cutClear := field b 0x64 2, settle := field b 0x68 3 }
  else none

/-- LINK, corrected as R121 gives. -/
def readLink (b : List Byte) : LinkTable where
  mask := BitVec.ofNat 4 (byteAt b 0x20)
  stationOffset := field b 0x28 3
  lead := field b 0x2C 3
  issueMargin := field b 0x30 3
  missTol := field b 0x34 3
  cutTimeout := field b 0x38 3
  linkDiv := clamp 4 1023 (field b 0x22 2)
  stretchLimit := max 1 (byteAt b 0x21)
  pollGap := field b 0x24 2

/-- SHIFT, corrected as R154 gives. -/
def readShift (b : List Byte) : ShiftTable where
  prescale := max 1 (field b 0x20 4 % 1048576)
  coarse := (byteAt b 0x28).testBit 0
  length := max 1 (field b 0x24 4)
  repeats := (byteAt b 0x28).testBit 1
  enabled := (byteAt b 0x28).testBit 2

/-- Window `w` of a TRANSIT table: a 40-bit base and an 8-byte size (11.6). -/
def readWindow (b : List Byte) (w : Nat) : Window := { base := field b (0x20 + 16 * w) 5, size := field b (0x28 + 16 * w) 8 }

/-- The size of the control window. -/
def controlSize : Nat := 4096

/-- A window is refused (R136): not in 4 KiB steps, or, when present, ending beyond 2^40 or sharing a byte with the control window. -/
def Window.refused (control : Nat) (w : Window) : Bool :=
  decide (w.base % 4096 ≠ 0) || decide (w.size % 4096 ≠ 0)
    || (decide (w.size ≠ 0)
        && (decide (addressSpace < w.base + w.size)
            || (decide (w.base < control + controlSize) && decide (control < w.base + w.size))))

/-- TRANSIT, refused and corrected as R136 gives. -/
def readTransit (control : Nat) (b : List Byte) : Option TransitTable :=
  let image := readWindow b 0
  let protect : Vector Window 6 := Vector.ofFn fun k : Fin 6 => readWindow b (k.val + 1)
  if image.refused control || protect.toList.any (Window.refused control) || decide (2 ^ 30 < image.size) then none
  else some { image := image, protect := protect, ownShare := clamp 1 15 (byteAt b 0x90), refreshLines := field b 0x92 2 }

/-- The kind a code names (11.6). -/
def tableKindOf : Nat → Option TableKind
  | 1 => some .transit
  | 2 => some .detect
  | 3 => some .column
  | 4 => some .cls
  | 5 => some .grade
  | 6 => some .product
  | 7 => some .link
  | 8 => some .shift
  | _ => none

/-- The length of a table of each kind (11.6). -/
def TableKind.length : TableKind → Nat
  | .transit => 0xA0
  | .detect => 0x40
  | .column => 0x2020
  | .cls => 0x240
  | .grade => 0x40
  | .product => 0x80
  | .link => 0x40
  | .shift => 0x40

/-- The beats of a table of each kind. -/
def TableKind.beats (k : TableKind) : Nat := k.length / beatBytes

/-- A table read whole: structurally judged (R169), then validated by the rule of its kind (R163); none where it is refused. -/
def readTable (control : Nat) (k : TableKind) (b : List Byte) : Option TableBody :=
  if tableKindOf (byteAt b 0) ≠ some k ∨ field b 4 4 ≠ k.length then none
  else
    match k with
    | .transit => (readTransit control b).map .transit
    | .detect => (readDetect b).map .detect
    | .column => some (.column (readColumn b))
    | .cls => (readClass b).map .cls
    | .grade => some (.grade (readGrade b))
    | .product => (readProduct b).map .product
    | .link => some (.link (readLink b))
    | .shift => some (.shift (readShift b))

/-- The verdict on a directory's entries: the entries, or the index of the first bad one (R163). -/
inductive Directory where
  | good (entries : List DirEntry)
  | bad (index : Nat)
  deriving DecidableEq, Repr

/-- One directory entry, given the good ones before it (R163): an undefined kind, a kind seen before, a table address not 32-byte
aligned or a table ending beyond 2^40 make it bad. -/
def readDirEntry (b : List Byte) (i : Nat) (before : List DirEntry) : Option DirEntry :=
  let addr := field b (16 * i + 8) 5
  match tableKindOf (byteAt b (16 * i)) with
  | none => none
  | some k =>
    if before.any (fun e => decide (e.kind = k)) ∨ addr % beatBytes ≠ 0 ∨ addressSpace < addr + k.length then none
    else some { kind := k, addr := addr }

/-- The entries of a directory from index `i` on, `n` of them. -/
def readDirFrom (b : List Byte) : Nat → Nat → List DirEntry → Directory
  | _, 0, acc => .good acc
  | i, n + 1, acc =>
    match readDirEntry b i acc with
    | none => .bad i
    | some e => readDirFrom b (i + 1) n (acc ++ [e])

/-- The entries of a directory of `n` entries (11.6). -/
def readDirectory (b : List Byte) (n : Nat) : Directory := readDirFrom b 0 n []

/-- The first `n` 2-byte values of a byte list. -/
def backgroundsOf : Nat → List Byte → List Background
  | 0, _ => []
  | n + 1, b => BitVec.ofNat 16 (ofLe (b.take 2)) :: backgroundsOf n (b.drop 2)

/-- The reference image: 8192 values of 2 bytes (11.6). -/
def readReference (b : List Byte) : Cells Background := Cells.ofList powerOnBackground 0 (backgroundsOf columnCount b)

/-- The reference image of the backgrounds (11.6). -/
def referenceBytes (t : Cells Background) : List Byte :=
  (Cells.toList powerOnBackground 0 columnCount t).flatMap fun v => toLe 2 v.toNat

end Sys2Proof.Machine
end

