-- ==== Sys2Proof/Machine/Analysis.lean ====
section
/-! DEFINITION. The end of a line's analysis (R21, R42, R43), the end of STOPPING (R51), and the reference snapshot (R39). -/

namespace Sys2Proof.Machine

/-! ### The flaw store -/

/-- The capacity of the flaw store (R58). -/
def storeCapacity : Nat := 512

/-- A flaw is offered to the store: appended, or lost with its range charged as a flaw-store-full loss (R58, R59). -/
def State.offerFlaw (f : Flaw) (s : State) : State :=
  if s.fdu.store.length < storeCapacity then { s with fdu.store := s.fdu.store ++ [f] }
  else s.addLoss .flawStoreFull (Gap.between f.first f.stop)

/-- A blob that has left the table closes: discarded with area 0, else classified and offered to the store; the flag says it closes by
splitting (R48 to R50). -/
def State.closeBlob (s : State) (x : Blob × Bool) : State :=
  if x.1.area = 0 then s
  else s.offerFlaw (x.1.toFlaw s.fdu.detect s.fdu.classes s.ppl.grade (x.1.stop s.fdu.detect.ldiv) x.2 false)

/-- The successor of a blob split at the line of `stamp` is opened (R49). -/
def State.openSuccessor (stamp : Pos) (s : State) (b : Blob) : State :=
  let id := nextBlobId (s.fdu.blobs.map Blob.id ++ s.fdu.store.map Flaw.id) s.fdu.lastBlobId
  { s with fdu.blobs := s.fdu.blobs ++ [b.successor s.fdu.detect stamp id], fdu.lastBlobId := id }

/-! ### Linking -/

/-- The runs of a line placed in the table, in order (R42 step 3). -/
def linkRuns (t : Detect) (stamp : Pos) (storeIds : List Nat) (blobs : List Blob) (lastId : Nat) (runs : List Run) : Linking :=
  runs.foldl (linkRun t stamp storeIds) { works := blobs.map Work.ofBlob, lastId := lastId, lost := false }

/-- Steps 3 to 6 of R42: runs linked, splits and closures tested, closed blobs entered in ascending id, successors opened. -/
def State.linkLine (stamp : Pos) (runs : List Run) (s : State) : State :=
  let t := s.fdu.detect
  let l := linkRuns t stamp (s.fdu.store.map Flaw.id) s.fdu.blobs s.fdu.lastBlobId runs
  let s := if l.lost then s.addLoss .blobTableFull (stampRange stamp t.ldiv) else s
  let split := (l.works.filter (Work.splits t stamp)).map fun w => (w.finish, true)
  let rest := (l.works.filter fun w => !w.splits t stamp).map Work.finish
  let closing := sortById (split ++ (rest.filter (Blob.quiet t stamp)).map fun b => (b, false))
  let s := { s with fdu.blobs := rest.filter (fun b => !b.quiet t stamp), fdu.lastBlobId := l.lastId }
  let s := closing.foldl State.closeBlob s
  ((closing.filter Prod.snd).map Prod.fst).foldl (State.openSuccessor stamp) s

/-- Step 1 of R42: an IDLE planner opens a piece at the line's stamp (R78); the scan seen marker is set if it is OPEN (R72). -/
def State.openAtLine (stamp : Pos) (s : State) : State :=
  match s.ppl.piece with
  | none => s.openPiece stamp true
  | some _ => { s with ppl.scanSeen := true }

/-- The open piece begins after the stamp: the line lies behind it (R43). -/
def State.pieceAfter (stamp : Pos) (s : State) : Option Pos :=
  match s.ppl.piece with
  | some p => if before stamp p.start then some p.start else none
  | none => none

/-- Steps 2 to 6 of R42. A line behind the open piece has its runs discarded and its part after S added to the gap list (R43). -/
def State.linkOrDiscard (stamp : Pos) (runs : List Run) (s : State) : State :=
  match s.pieceAfter stamp with
  | some start =>
    let stop := ahead stamp s.fdu.detect.ldiv
    let s := if before start stop then s.addGap (Gap.between start stop) else s
    s.linkLine stamp []
  | none => s.linkLine stamp runs

/-! ### The snapshot -/

/-- The snapshot of the reference is taken: its 32 writes of 16 beats are placed (R39). -/
def State.takeSnapshot (addr : Nat) (s : State) : State :=
  let bytes := referenceBytes s.fdu.reference
  (List.range 32).foldl
    (fun s i =>
      s.place
        { purpose := .snapshot, kind := .write, addr := addr + 512 * i, beats := 16, data := (bytes.drop (512 * i)).take 512 })
    s

/-- A pending snapshot is taken (R21, R40). -/
def State.takePendingSnapshot (s : State) : State :=
  match s.fdu.snapshot with
  | some addr => { s with fdu.snapshot := none }.takeSnapshot addr
  | none => s

/-! ### The analysis end -/

/-- The learn count decreases at the end of a LEARN line; at 0 the mode and a LEARN inspection become RUN (R31, R162). -/
def State.learnStep (s : State) : State :=
  let n := s.fdu.learnCount - 1
  if n = 0 then
    { s with
      fdu.learnCount := 0, fdu.mode := .run
      csu.inspection := if s.csu.inspection = .learn then .run else s.csu.inspection }
  else { s with fdu.learnCount := n }

/-- What the end of a LEARN line adds: its range to the gap list (R32) and the step of the learn count (R31). -/
def State.learnLine (stamp : Pos) (s : State) : State := (s.addGap (stampRange stamp s.fdu.detect.ldiv)).learnStep

/-- The refresh line count steps at an analysis end, requesting a status write when it reaches refresh_lines (R164). -/
def State.countRefresh (s : State) : State :=
  let top := s.tru.params.refreshLines
  if top = 0 then s
  else if top ≤ s.csu.refreshCount + 1 then { s with csu.refreshCount := 0 }.requestStatus
  else { s with csu.refreshCount := s.csu.refreshCount + 1 }

/-- The phase of a STOP. -/
def isStopping : Phase → Bool
  | .stopping => true
  | _ => false

/-- STOPPING ends: every open blob closes in ascending id, inspection becomes OFF, staged tables take effect, STOP completes (R36, R51,
R162). -/
def State.stoppingEnd (s : State) : State :=
  let blobs := sortById (s.fdu.blobs.map fun b => (b, false))
  let s := blobs.foldl State.closeBlob { s with fdu.blobs := [] }
  ({ s with csu.inspection := .off }.takeFduTables).completeWith isStopping 0

/-- STOPPING ends at the first event at which the line queue is empty (R162). -/
def State.endStoppingIfDrained (s : State) : State :=
  if s.csu.inspection = .stopping ∧ s.lcu.lineQueue.isEmpty then s.stoppingEnd else s

/-- The line leaves the queue and the next, if one waits, begins analysis (R12, R21). -/
def State.nextLine (s : State) : State :=
  State.beginAnalysis { s with lcu.lineQueue := s.lcu.lineQueue.tail, fdu.analysis := none }

/-- All the results of the line `l`, analysed as a line of the given kind, take effect (R21). -/
def State.lineResults (l : Line) (mode : LineMode) (s : State) : State :=
  let t := s.fdu.detect
  let cols := columnsOf s.fdu.columns s.fdu.reference l.pixels
  let s := { s with fdu.reference := referenceAfter t mode cols s.fdu.reference }
  let s := (s.openAtLine l.stamp).linkOrDiscard l.stamp (lineRuns t mode cols)
  let s := s.count fun k => { k with lines := satAdd max32 k.lines 1 }
  let s := { s with fdu.scan := ahead l.stamp t.ldiv }
  match mode with
  | .learn => s.learnLine l.stamp
  | .run => s

/-- The analysis of the line in analysis ends (R21): its results, the pending snapshot, the planner check (R83), the refresh count, the
next line and the end of STOPPING. With no line in analysis nothing happens. -/
def State.analysisEnds (s : State) : State :=
  match s.fdu.analysis, s.lcu.lineQueue with
  | some mode, l :: _ =>
    ((((s.lineResults l mode).takePendingSnapshot).plannerCheck.countRefresh).nextLine).endStoppingIfDrained
  | _, _ => s

end Sys2Proof.Machine
end

