-- ==== Sys2Proof/Machine/Cutting.lean ====
section
/-! DEFINITION. The cut queue, the bridges and the cutter link (chapter 6). -/

namespace Sys2Proof.Machine

/-! ### Entries and outcomes -/

/-- The bridge `b` changes. -/
def State.onBridge (b : Fin 4) (f : Bridge → Bridge) (s : State) : State :=
  { s with cdu.bridges := s.cdu.bridges.set b (f (s.bridge b)) }

/-- The bridge, tag and issue position of an ISSUED entry. -/
def Entry.issued (e : Entry) : Option (Fin 4 × Byte × Pos) :=
  match e.state with
  | .issued b tag issue => some (b, tag, issue)
  | .waiting _ => none

/-- The entry is WAITING. -/
def Entry.isWaiting (e : Entry) : Bool :=
  match e.state with
  | .waiting _ => true
  | .issued _ _ _ => false

/-- The entry of piece `seq` takes its outcome: it leaves the queue, its record is produced and it is counted; a FAULTED one carries
the fault code of its bridge (R104, 11.5). -/
def State.entryOutcome (o : PieceOutcome) (s : State) (e : Entry) : State :=
  let code := match o, e.issued with
    | .faulted, some (b, _, _) => (s.bridge b).faultCode
    | _, _ => noFaultCode
  { s with cdu.queue := s.cdu.queue.filter fun x => x.piece.seq != e.piece.seq }.pieceOutcome e.piece o e.issued code

/-- The state of the entry of piece `seq` changes. -/
def State.setEntry (seq : Word) (st : EntryState) (s : State) : State :=
  { s with cdu.queue := s.cdu.queue.map fun x => if x.piece.seq = seq then { x with state := st } else x }

/-- The entry of piece `seq`. -/
def State.entryOf (s : State) (seq : Word) : Option Entry := s.cdu.queue.find? fun x => x.piece.seq == seq

/-- The counter has reached F + miss_tol of an entry (R105), by the miss_tol of the last counter event: a LINK table that has taken effect
since governs from the next one (R122). -/
def State.pastMiss (s : State) (e : Entry) : Bool := reaches (ahead e.piece.fire s.cdu.missTol) s.lcu.counter

/-- The miss test on the entry of piece `seq` at the end of a transfer: MISSED if it is WAITING and the counter has reached F + miss_tol
(R105, R118, R119). -/
def State.missTestOn (seq : Word) (s : State) : State :=
  match s.entryOf seq with
  | some e => if e.isWaiting && s.pastMiss e then s.entryOutcome .missed e else s
  | none => s

/-- The miss test of a counter event: every WAITING entry not in transfer whose F + miss_tol the counter has reached (R105). -/
def State.missTestAll (s : State) : State :=
  (s.cdu.queue.filter fun e => decide (e.state = .waiting false) && s.pastMiss e).foldl (State.entryOutcome .missed) s

/-! ### Bridges -/

/-- The bridge is not DISABLED. -/
def Bridge.enabled (b : Bridge) : Bool := decide (b.state ≠ .disabled)

/-- The state a bridge takes when its BUSY state ends: DISABLED, with miss count 0, if its enable bit is clear, else `st` (R107). -/
def State.endBusy (b : Fin 4) (st : BridgeState) (s : State) : State :=
  if s.cdu.mask.getLsbD b.val then s.onBridge b fun x => { x with state := st }
  else s.onBridge b fun x => { x with state := .disabled, misses := 0 }

/-- A bridge that is not BUSY takes a state. -/
def State.setBridge (b : Fin 4) (st : BridgeState) (s : State) : State := s.onBridge b fun x => { x with state := st }

/-- A bridge enters FAULT: it is counted and BRIDGE_FAULT is raised (R111). -/
def State.bridgeFaulted (b : Fin 4) (s : State) : State :=
  (s.count fun k => { k with bridgeFaults := bump k.bridgeFaults b 1 }).raise .bridgeFault

/-- A new enable mask acts on one bridge (R107). -/
def Bridge.remask (set : Bool) (b : Bridge) : Bridge :=
  match set, b.state with
  | true, .disabled => { b with state := .offline, misses := 0 }
  | true, _ => b
  | false, .disabled => b
  | false, .busy _ _ => b
  | false, _ => { b with state := .disabled, misses := 0 }

/-- The enable mask is replaced (R107). -/
def State.setMask (mask : BitVec 4) (s : State) : State :=
  { s with
    cdu.mask := mask
    cdu.bridges := Vector.ofFn fun b : Fin 4 => (s.bridge b).remask (mask.getLsbD b.val) }

/-- A miss is charged against a bridge; the third takes it OFFLINE, and FAULTED goes its entry if it was BUSY (R110). -/
def State.chargeMiss (b : Fin 4) (s : State) : State :=
  let s := s.onBridge b fun x => { x with misses := min 3 (x.misses + 1) }
  let s := s.count fun k => { k with bridgeMisses := bump k.bridgeMisses b 1 }
  let x := s.bridge b
  if x.misses < 3 then s
  else
    match x.state with
    | .offline => s
    | .disabled => s
    | .busy _ piece =>
      let s := (s.endBusy b .offline).raise .bridgeFault
      match s.entryOf piece with
      | some e => s.entryOutcome .faulted e
      | none => s
    | .idle => (s.setBridge b .offline).raise .bridgeFault
    | .notReady => (s.setBridge b .offline).raise .bridgeFault
    | .fault => (s.setBridge b .offline).raise .bridgeFault

/-- A good response clears the miss count (R110). -/
def State.clearMisses (b : Fin 4) (s : State) : State := s.onBridge b fun x => { x with misses := 0 }

/-- A bridge whose order has timed out: the issue position of its entry lies cut_timeout or more behind the counter (R109). -/
def State.timedOut (s : State) (b : Fin 4) : Bool :=
  s.cdu.queue.any fun e =>
    match e.state with
    | .issued c _ issue => decide (c = b) && decide (s.cdu.link.cutTimeout ≤ dist issue s.lcu.counter)
    | .waiting _ => false

/-- A timed-out bridge goes to FAULT with code TIMEOUT (R109, R111); one whose enable bit is clear goes to DISABLED (R107). -/
def State.timeoutBridge (s : State) (b : Fin 4) : State :=
  let s := s.onBridge b fun x => { x with faultCode := timeoutCode }
  let s := s.endBusy b .fault
  if (s.bridge b).state = .fault then s.bridgeFaulted b else s

/-- The timeout test of a counter event: every BUSY bridge whose order has timed out goes to FAULT, then their entries take the
outcome FAULTED in queue order (R104, R109). -/
def State.timeoutTestAll (s : State) : State :=
  let bridges := (List.finRange 4).filter s.timedOut
  let entries := s.cdu.queue.filter fun e => e.issued.any fun x => bridges.contains x.1
  entries.foldl (State.entryOutcome .faulted) (bridges.foldl State.timeoutBridge s)

/-! ### The poll loop -/

/-- Every bridge is DISABLED. -/
def State.allDisabled (s : State) : Bool := !s.cdu.bridges.toList.any Bridge.enabled

/-- The next bridge the round visits: the lowest at or above the loop position that is not DISABLED (R112). -/
def State.nextVisit (s : State) : Option (Fin 4) :=
  (List.finRange 4).find? fun b => decide (s.cdu.loopPos ≤ b.val) && (s.bridge b).enabled

/-- The lowest-numbered IDLE bridge (R113). -/
def State.idleBridge (s : State) : Option (Fin 4) :=
  (List.finRange 4).find? fun b => decide ((s.bridge b).state = .idle)

/-- The head WAITING entry, if it is due (R105). -/
def State.dueEntry (s : State) : Option Entry :=
  match s.cdu.queue.find? Entry.isWaiting with
  | some e => if reaches e.piece.fire s.lcu.counter then some e else none
  | none => none

/-- The tag after `t`; after 255 comes 1 (R108). -/
def tagAfter (t : Byte) : Byte := if t = 255 then 1 else t + 1

/-- The next tag for a bridge: the one it last reported is passed over (R108). -/
def nextTag (last reported : Byte) : Byte :=
  if tagAfter last = reported then tagAfter (tagAfter last) else tagAfter last

/-- A CUT transfer starts (R108, R113). -/
def State.startCut (e : Entry) (b : Fin 4) (s : State) : State :=
  let tag := nextTag s.cdu.tag (s.bridge b).lastTag
  let s := s.setEntry e.piece.seq (.waiting true)
  { s with cdu.tag := tag, cdu.engine := .cutXfer b e.piece.seq tag e.piece.lane false }

/-- The CUT transfer that may start now: the due head WAITING entry and the lowest IDLE bridge (R113). -/
def State.cutReady (s : State) : Option (Entry × Fin 4) :=
  match s.dueEntry, s.idleBridge with
  | some e, some b => some (e, b)
  | _, _ => none

/-- A round begins at bridge 1 with its first poll (R112). -/
def State.startRound (s : State) : State :=
  let s := { s with cdu.loopPos := 0, cdu.gapRunning := false }
  match s.nextVisit with
  | some b => { s with cdu.engine := .pollXfer b false }
  | none => { s with cdu.engine := .idle }

/-- The round has ended: a gap begins (R112, R122). -/
def State.startGap (s : State) : State :=
  { s with cdu.gapRunning := true, cdu.gapTime := 0, cdu.gapLen := s.cdu.link.pollGap, cdu.loopPos := 0 }

/-- What the engine does next at a boundary: IDLE with every bridge DISABLED; the end of the round; a CUT transfer; the rest of the
gap or a new round; the next poll (R112, R113). -/
def State.chooseNext (s : State) : State :=
  if s.allDisabled then { s with cdu.engine := .idle, cdu.loopPos := 0, cdu.gapRunning := false }
  else
    let s := if s.cdu.gapRunning = false ∧ s.nextVisit = none then s.startGap else s
    match s.cutReady with
    | some (e, b) => s.startCut e b
    | none =>
      if s.cdu.gapRunning then
        if s.cdu.gapLen ≤ s.cdu.gapTime then s.startRound else { s with cdu.engine := .gap }
      else
        match s.nextVisit with
        | some b => { s with cdu.engine := .pollXfer b false }
        | none => s

/-! ### Between transfers -/

/-- The phase of a BRIDGE_ENABLE that waits. -/
def isBridgeMask : Phase → Bool
  | .bridgeMask => true
  | _ => false

/-- A staged LINK table and a mask that BRIDGE_ENABLE waits to hand over take effect between transfers (R107, R122); the planner
recomputes its deadline (R100). -/
def State.takeLink (s : State) : State :=
  let s := match s.cdu.stagedLink with
    | some t => ({ s with cdu.link := t, cdu.stagedLink := none }.setMask t.mask).armDeadline
    | none => s
  match s.cdu.newMask with
  | some m => ({ s with cdu.newMask := none }.setMask m).completeWith isBridgeMask 0
  | none => s

/-- The engine is between transfers (R112). -/
def Engine.between : Engine → Bool
  | .idle => true
  | .gap => true
  | .stuck => true
  | .pollXfer _ _ => false
  | .cutXfer _ _ _ _ _ => false

/-- In IDLE a round begins when a bridge has left DISABLED; in GAP the engine enters IDLE when every bridge is DISABLED (R112). -/
def State.reviewEngine (s : State) : State :=
  match s.cdu.engine with
  | .idle => if s.allDisabled then s else s.startRound
  | .gap =>
    if s.allDisabled then { s with cdu.engine := .idle, cdu.loopPos := 0, cdu.gapRunning := false } else s
  | _ => s

/-- What waits for the engine to be between transfers is taken if it is (R107, R122). -/
def State.takeLinkIfBetween (s : State) : State := if s.cdu.engine.between then s.takeLink.reviewEngine else s

/-- A transfer boundary (R112, R122). -/
def State.boundary (s : State) : State := s.takeLink.chooseNext

/-! ### Responses -/

/-- What the part judges of a bridge's bytes (R115). -/
inductive Judgement where
  | absent
  | garbled
  | good
  deriving DecidableEq, Repr

/-- The judgement on the bridge's bytes, given whether their codes are defined (R115, R171). -/
def judge (bytes : List Byte) (defined : Bool) : Judgement :=
  if bytes.all (· == 0xFF) then .absent
  else if (bytes.map BitVec.toNat).sum % 256 ≠ 0 then .garbled
  else if defined then .good
  else .garbled

/-- The response code ACCEPT (11.7). -/
def acceptCode : Byte := 0x06

/-- The response code REFUSE (11.7). -/
def refuseCode : Byte := 0x15

/-- The status kinds of a POLL response (11.7). -/
inductive StatusKind where
  | ready
  | cutting
  | done
  | fault
  deriving DecidableEq, Repr

/-- The kind in bits 7:4 of a status byte (11.7). -/
def statusKindOf (status : Byte) : Option StatusKind :=
  match status.toNat / 16 with
  | 1 => some .ready
  | 2 => some .cutting
  | 3 => some .done
  | 4 => some .fault
  | _ => none

/-- The check byte of a sequence: the two's complement of its sum (R115). -/
def checkByte (bytes : List Byte) : Byte := 0 - bytes.foldl (· + ·) 0

/-- A byte sequence with its check byte (R115). -/
def frame (bytes : List Byte) : List Byte := bytes ++ [checkByte bytes]

/-- The bytes the part sends in the transfer on the link (11.7); none between transfers. -/
def State.linkFrame (s : State) : List Byte :=
  match s.cdu.engine with
  | .pollXfer b _ => frame [0x50 + BitVec.ofNat 8 (b.val + 1)]
  | .cutXfer b piece tag lane _ =>
    frame [0xA0 + BitVec.ofNat 8 (b.val + 1), tag, BitVec.ofNat 8 piece.toNat, BitVec.ofNat 8 (lane % 16)]
  | _ => []

/-- An order is taken as issued to bridge `b`: the entry becomes ISSUED and the bridge BUSY (R106, R118). -/
def State.issue (b : Fin 4) (piece : Word) (tag : Byte) (s : State) : State :=
  (s.setEntry piece (.issued b tag s.lcu.counter)).onBridge b fun x => { x with state := .busy tag piece }

/-- A CUT transfer to `b` ends accepted, or refused, or with the accept uncertain, or incomplete (R118). -/
inductive CutEnd where
  | accepted
  | refused
  | uncertain
  | incomplete
  deriving DecidableEq, Repr

/-- What the end of a CUT transfer does to its entry and its bridge (R118). -/
def State.cutEnds (o : CutEnd) (b : Fin 4) (piece : Word) (tag : Byte) (s : State) : State :=
  match o with
  | .accepted => (s.issue b piece tag).clearMisses b
  | .refused => (((s.setEntry piece (.waiting false)).setBridge b .notReady).clearMisses b).missTestOn piece
  | .uncertain => (s.issue b piece tag).chargeMiss b
  | .incomplete => ((s.setEntry piece (.waiting false)).chargeMiss b).missTestOn piece

/-- The end of a CUT transfer a response means (R115, R118, R171). -/
def cutEndOf (code check : Byte) : CutEnd :=
  match judge [code, check] (code == acceptCode || code == refuseCode) with
  | .good => if code = acceptCode then .accepted else .refused
  | .garbled => .uncertain
  | .absent => .uncertain

/-- The entry of a BUSY bridge returns to WAITING and takes the miss test (R119). -/
def State.returnEntry (piece : Word) (s : State) : State := (s.setEntry piece (.waiting false)).missTestOn piece

/-- A good response for a BUSY bridge with outstanding tag `t` and piece `p` (R119). -/
def State.pollBusy (b : Fin 4) (t : Byte) (p : Word) (k : StatusKind) (code tag : Byte) (s : State) : State :=
  match k with
  | .cutting => if tag = t then s else (s.endBusy b .notReady).returnEntry p
  | .done =>
    if tag = t then
      match s.entryOf p with
      | some e => (s.endBusy b .idle).entryOutcome .cut e
      | none => s.endBusy b .idle
    else (s.endBusy b .idle).returnEntry p
  | .ready => (s.endBusy b .idle).returnEntry p
  | .fault =>
    let s := s.onBridge b fun x => { x with faultCode := code }
    let s := s.endBusy b .fault
    let s := if (s.bridge b).state = .fault then s.bridgeFaulted b else s
    if tag = t then
      match s.entryOf p with
      | some e => s.entryOutcome .faulted e
      | none => s
    else s.returnEntry p

/-- A good response for a bridge that is not BUSY (R120). -/
def State.pollFree (b : Fin 4) (k : StatusKind) (code : Byte) (s : State) : State :=
  match k with
  | .ready => s.setBridge b .idle
  | .done => s.setBridge b .idle
  | .cutting => s.setBridge b .notReady
  | .fault =>
    let was := (s.bridge b).state
    let s := s.onBridge b fun x => { x with state := .fault, faultCode := code }
    if was = .fault then s else s.bridgeFaulted b

/-- A good POLL response: it replaces the last report, clears the miss count and acts by the bridge's state (R110, R119, R120). On a bridge
that went to DISABLED during the poll it acts no further: no state and no fault code (DEDUCED, log entry 25). -/
def State.pollGood (b : Fin 4) (k : StatusKind) (status tag : Byte) (s : State) : State :=
  let s := s.onBridge b fun x => { x with lastStatus := status, lastTag := tag, misses := 0 }
  let code := status &&& 0x0F
  match (s.bridge b).state with
  | .busy t p => s.pollBusy b t p k code tag
  | .disabled => s
  | .offline => s.pollFree b k code
  | .idle => s.pollFree b k code
  | .notReady => s.pollFree b k code
  | .fault => s.pollFree b k code

/-- What the end of a POLL transfer to `b` does (R115, R119, R120). -/
def State.pollEnds (b : Fin 4) (status tag check : Byte) (s : State) : State :=
  match judge [status, tag, check] (statusKindOf status).isSome, statusKindOf status with
  | .good, some k => s.pollGood b k status tag
  | _, _ => s.chargeMiss b

/-- The loop position moves past the polled bridge (R112). -/
def State.polled (b : Fin 4) (s : State) : State := { s with cdu.loopPos := b.val + 1 }

/-! ### Abandonment and STUCK -/

/-- A bridge at entry to STUCK (R117): a BUSY one whose enable bit is clear goes to DISABLED (R107). -/
def Bridge.atStuck (enabled : Bool) (b : Bridge) : Bridge :=
  match b.state with
  | .disabled => b
  | .busy _ _ => if enabled then { b with state := .offline } else { b with state := .disabled, misses := 0 }
  | _ => { b with state := .offline }

/-- The engine enters STUCK (R117). -/
def State.enterStuck (s : State) : State :=
  let entries := s.cdu.queue.filter fun e => e.issued.isSome
  let s :=
    { s with
      cdu.bridges := Vector.ofFn fun b : Fin 4 => (s.bridge b).atStuck (s.cdu.mask.getLsbD b.val)
      cdu.engine := .stuck, cdu.loopPos := 0, cdu.gapRunning := false, cdu.lckHeld := true }
  ((entries.foldl (State.entryOutcome .faulted) s).raise .bridgeFault).takeLink

/-- The transfer on the link is abandoned (R116): what that does to its entry and its bridge. -/
def State.abandon (point : AbandonPoint) (s : State) : State :=
  match s.cdu.engine with
  | .pollXfer b _ => (s.chargeMiss b).polled b
  | .cutXfer b piece tag _ _ =>
    match point with
    | .beforeCheck => s.cutEnds .incomplete b piece tag
    | .afterCheck => s.cutEnds .uncertain b piece tag
  | _ => s

/-- A bridge after RESET_ENGINE (R123); its miss count is 0 whatever its state (R110). -/
def Bridge.atReset (enabled : Bool) (b : Bridge) : Bridge :=
  match b.state with
  | .disabled => { b with misses := 0 }
  | .busy _ _ => { b with state := if enabled then .offline else .disabled, misses := 0 }
  | _ => { b with state := .offline, misses := 0 }

/-- RESET_ENGINE in the dispatch unit (R123): every entry ABANDONED, bridges returned, the staged table taken, a new round. -/
def State.resetDispatch (s : State) : State :=
  let s := s.cdu.queue.foldl (State.entryOutcome .abandoned) s
  let s :=
    { s with
      cdu.queue := []
      cdu.bridges := Vector.ofFn fun b : Fin 4 => (s.bridge b).atReset (s.cdu.mask.getLsbD b.val)
      cdu.engine := .idle, cdu.loopPos := 0, cdu.gapRunning := false, cdu.gapTime := 0, cdu.gapLen := 0
      cdu.missTest := false, cdu.timeoutTest := false }
  s.takeLink.reviewEngine

end Sys2Proof.Machine
end

