-- ==== Sys2Proof/Machine/Shift.lean ====
section
/-! DEFINITION. The shift accumulator (chapter 9): the close of a shift, the timer, its expiry and its table. -/

namespace Sys2Proof.Machine

/-- The timer is restarted (R152). -/
def State.restartTimer (s : State) : State :=
  { s with
    sac.running := true, sac.prescaleCount := 0, sac.tickCount := 0, sac.stepCount := 0, sac.expired := false }

/-- The timer is stopped; its counts stay (R152). An expiry raised and not yet taken does not occur (R153). -/
def State.stopTimer (s : State) : State := { s with sac.running := false, sac.expired := false }

/-- The report of the open shift at its close (R155 step 1). -/
def State.shiftReport (s : State) (reason : ShiftReason) : ShiftReport where
  number := s.sac.number
  openReason := s.sac.openReason
  closeReason := reason
  startPos := s.sac.startPos
  endPos := s.lcu.counter
  coarse := s.sac.params.coarse
  stepCount := s.sac.stepCount
  counters := s.sac.counters

/-- The open shift closes with a reason (R155): report, counters zeroed, number, positions, the report produced, SHIFT_CLOSED. -/
def State.closeShift (reason : ShiftReason) (s : State) : State :=
  let report := s.shiftReport reason
  let s :=
    { s with
      sac.counters := ShiftCounters.zero, sac.number := nextSequence s.sac.number, sac.startPos := s.lcu.counter,
      sac.openReason := reason }
  (s.produce chReport (.report report)).raise .shiftClosed

/-- One step of the timer; the one that would bring the count to length raises the expiry and keeps the count (R152). -/
def State.timerStep (s : State) : State :=
  if s.sac.params.length ≤ s.sac.stepCount + 1 then { s with sac.expired := true }
  else { s with sac.stepCount := s.sac.stepCount + 1 }

/-- The ticks of a second in the 1 s step mode (R152). -/
def ticksPerStep : Nat := 1000

/-- A millisecond tick of a RUNNING timer (R152). -/
def State.tick (s : State) : State :=
  let s := { s with sac.prescaleCount := 0 }
  if s.sac.params.coarse then
    if ticksPerStep ≤ s.sac.tickCount + 1 then { s with sac.tickCount := 0 }.timerStep
    else { s with sac.tickCount := s.sac.tickCount + 1 }
  else s.timerStep

/-- The raised expiry is taken: the shift closes with reason TIMER, and the timer is restarted, or stopped with step count 0 (R153). -/
def State.shiftExpiry (s : State) : State :=
  let s := s.closeShift .timer
  if s.sac.params.repeats then s.restartTimer else { s.stopTimer with sac.stepCount := 0 }

/-- END_SHIFT: the shift closes with reason COMMAND, and an enabled timer is restarted (R156). -/
def State.endShift (s : State) : State :=
  let s := s.closeShift .command
  if s.sac.params.enabled then s.restartTimer else s

/-- A SHIFT table takes effect (R154). -/
def State.takeShift (t : ShiftTable) (s : State) : State :=
  let s := { s with sac.params := t }
  if t.enabled then s.restartTimer else s.stopTimer

/-- One REFCLK period in the shift timer (R152): the prescale count steps while the timer is RUNNING, and ticks at prescale. -/
def State.timerPeriod (s : State) : State :=
  if s.sac.running then
    if s.sac.params.prescale ≤ s.sac.prescaleCount + 1 then s.tick
    else { s with sac.prescaleCount := s.sac.prescaleCount + 1 }
  else s

end Sys2Proof.Machine
end

