-- ==== Sys2Proof/Machine/Channels.lean ====
section
/-! DEFINITION. The output channels (chapter 8): descriptors, record writes, entry ends, stop words, pause, resume, terminate. -/

namespace Sys2Proof.Machine

/-- The stop index of a channel: the least significant byte of its stop word (R146). -/
def State.stopIndex (s : State) (ch : Fin 3) : Nat := (s.stopWord ch).toNat % 256

/-- AT_STOP: the current index equals the stop index (R146). -/
def State.atStop (s : State) (ch : Fin 3) : Bool := (s.channel ch).index == s.stopIndex ch

/-- The result value of a CHANNEL command: the channel state (R161), coded as 11.3 gives. -/
def State.channelValue (s : State) (ch : Fin 3) : Word := BitVec.ofNat 32 (s.channel ch).state.code

/-- The loaded entry carries FLAG. -/
def Channel.flagSet (c : Channel) : Bool := c.entry.any Descriptor.flag

/-- The loaded entry carries EOL. -/
def Channel.eolSet (c : Channel) : Bool := c.entry.any Descriptor.eol

/-- The fetch of the descriptor at the current index begins: one own read of the beat that holds it (R142). -/
def State.fetch (ch : Fin 3) (s : State) : State :=
  let c := s.channel ch
  (s.onChannel ch fun c => { c with activity := .fetching, entry := none, remaining := 0 }).place
    { purpose := .descriptor ch, kind := .read, addr := c.table + 32 * (c.index / 2), beats := 1, data := [] }

/-- The fetch begins, unless a pending operation keeps it from beginning: then the index is kept and no entry is loaded (R147,
R148). -/
def State.fetchUnlessPending (ch : Fin 3) (s : State) : State :=
  if (s.channel ch).pendingOp = .none then s.fetch ch
  else s.onChannel ch fun c => { c with entry := none, remaining := 0 }

/-- A restart: a queued pair replaces table and auto-restart, the index becomes 0 and descriptor 0 is fetched (R145). -/
def State.restart (ch : Fin 3) (s : State) : State :=
  (s.onChannel ch fun c =>
      match c.restart with
      | some (table, auto) => { c with table := table, autoRestart := auto, restart := none, index := 0, state := .active }
      | none => { c with index := 0, state := .active }).fetchUnlessPending ch

/-- The channel moves on from a filled entry: at EOL or index 255 CH_EOL is raised and it restarts or ends; else the next descriptor
is fetched (R145 steps 3 and 4). -/
def State.moveOn (ch : Fin 3) (s : State) : State :=
  let c := s.channel ch
  if c.eolSet || c.index == 255 then
    let s := s.raise (.chEol ch)
    if c.restart.isSome || c.autoRestart then s.restart ch
    else s.onChannel ch fun c => { c with state := .ended }
  else (s.onChannel ch fun c => { c with index := c.index + 1, state := .active }).fetchUnlessPending ch

/-- An entry has been filled (R145). -/
def State.entryFilled (ch : Fin 3) (s : State) : State :=
  let s := if (s.channel ch).flagSet then s.raise (.chFlag ch) else s
  if s.atStop ch then (s.onChannel ch fun c => { c with state := .held }).raise (.chStop ch)
  else s.moveOn ch

/-- The channel places the write of its head record: ACTIVE, an entry loaded with room, no activity, nothing pending, a record queued
(R143). -/
def State.writeNext (ch : Fin 3) (s : State) : State :=
  let c := s.channel ch
  match c.entry, c.queue with
  | some e, r :: _ =>
    if c.state = .active ∧ c.activity = .none ∧ c.pendingOp = .none ∧ c.remaining ≠ 0 then
      (s.onChannel ch fun c => { c with activity := .writing }).place
        { purpose := .record ch, kind := .write,
          addr := e.buffer + (e.capacity - c.remaining) * (recordBeats ch * beatBytes),
          beats := recordBeats ch, data := r.bytes }
    else s
  | _, _ => s

/-- Every channel that can write does, channel 0 first (R132, R143). -/
def State.writeAll (s : State) : State := ((s.writeNext 0).writeNext 1).writeNext 2

/-- A record that TERMINATE discards is counted as dropped, without a cause (R148). -/
def State.discardRecords (ch : Fin 3) (s : State) : State :=
  let n := (s.channel ch).queue.length
  (s.onChannel ch fun c => { c with queue := [], dropped := c.dropped + BitVec.ofNat 32 n }).count fun k =>
    { k with recordsDropped := bump k.recordsDropped ch n }

/-- TERMINATE takes effect (R148). -/
def State.terminate (ch : Fin 3) (s : State) : State :=
  (s.discardRecords ch).onChannel ch fun c =>
    { c with
      state := .stopped, index := 0, entry := none, remaining := 0, activity := .none, pendingOp := .none, restart := none }

/-- The phase of a PAUSE or TERMINATE that waits for channel `ch`. -/
def isChannelOp (ch : Fin 3) : Phase → Bool
  | .channelOp c => c == ch
  | _ => false

/-- The pending operation takes effect after the request in flight has completed, and its command completes (R147, R148). -/
def State.settlePending (ch : Fin 3) (s : State) : State :=
  match (s.channel ch).pendingOp with
  | .none => s
  | .pause =>
    let s := s.onChannel ch fun c =>
      { c with state := if c.state = .active then .paused else c.state, pendingOp := .none }
    s.completeWith (isChannelOp ch) (s.channelValue ch)
  | .terminate =>
    let s := s.terminate ch
    s.completeWith (isChannelOp ch) (s.channelValue ch)

/-- The descriptor in its half of the returned beat (11.4). -/
def descriptorOf (index : Nat) (beat : List Byte) : Descriptor :=
  let o := 16 * (index % 2)
  { buffer := field beat o 5, capacity := field beat (o + 8) 2, flag := (byteAt beat (o + 10)).testBit 0,
    eol := (byteAt beat (o + 10)).testBit 1 }

/-- A descriptor is bad: capacity 0, a buffer not 32-byte aligned, or one that ends beyond 2^40 (R142). -/
def Descriptor.bad (ch : Fin 3) (d : Descriptor) : Bool :=
  decide (d.capacity = 0) || decide (d.buffer % beatBytes ≠ 0)
    || decide (addressSpace < d.buffer + d.capacity * (recordBeats ch * beatBytes))

/-- A descriptor read returns and is judged (R142); a pending TERMINATE keeps it from being judged (R148). -/
def State.descriptorReturn (ch : Fin 3) (beat : List Byte) (s : State) : State :=
  let c := s.channel ch
  let d := descriptorOf c.index beat
  let s := s.onChannel ch fun c => { c with activity := .none }
  let s :=
    if c.pendingOp = .terminate then s
    else if d.bad ch then (s.onChannel ch fun c => { c with state := .fault, entry := none }).raise .chFault
    else s.onChannel ch fun c => { c with entry := some d, remaining := d.capacity }
  s.settlePending ch

/-- A record write completes (R144, R145); under a pending TERMINATE no entry end is acted on (R148). -/
def State.recordWritten (ch : Fin 3) (s : State) : State :=
  let terminating := (s.channel ch).pendingOp = .terminate
  let s := s.onChannel ch fun c =>
    { c with queue := c.queue.tail, written := c.written + 1, remaining := c.remaining - 1, activity := .none }
  let s := if (s.channel ch).remaining = 0 ∧ ¬terminating then s.entryFilled ch else s
  s.settlePending ch

/-- A stop word is handed to the channel: its shadow byte is the new stop index, and a HELD channel whose index differs moves on
(R146). -/
def State.stopWordWritten (ch : Fin 3) (s : State) : State :=
  if (s.channel ch).state = .held ∧ s.atStop ch = false then s.moveOn ch else s

/-- The table address of CHANNEL START is refused (R141). -/
def badTable (table : Nat) : Bool := decide (table % beatBytes ≠ 0) || decide (addressSpace < table + 256 * 16)

/-- CHANNEL START on an aligned table: the new state of the channel, and the status (R141). -/
def State.channelStarted (ch : Fin 3) (table : Nat) (auto : Bool) (s : State) : State × Status :=
  match (s.channel ch).state with
  | .stopped | .ended | .fault =>
    ((s.onChannel ch fun c =>
        { c with table := table, autoRestart := auto, index := 0, restart := none, state := .active }).fetch ch, .ok)
  | .active | .held => (s.onChannel ch fun c => { c with restart := some (table, auto) }, .ok)
  | .paused => (s, .badState)

/-- A request that channel `ch` still waits to place is withdrawn and its activity becomes NONE (R147). -/
def State.withdraw (ch : Fin 3) (s : State) : State :=
  let mine := fun r : OwnRequest => r.purpose == .descriptor ch || r.purpose == .record ch
  if s.tru.waiting.any mine then
    { s with tru.waiting := s.tru.waiting.filter fun r => !mine r }.onChannel ch fun c => { c with activity := .none }
  else s

end Sys2Proof.Machine
end

