-- ==== Sys2Proof/Machine/Slots.lean ====
section
/-! DEFINITION. The command slots and the snooped words (R131, R158, R165), and the beginning of a command (R159). -/

namespace Sys2Proof.Machine

/-! ### Observed control-window beats -/

/-- The copy of a slot with the enabled bytes of a beat in place of its own (R158). -/
def mergeCopy (copy : Vector Word 6) (data : List Byte) (enables : BitVec 32) : Vector Word 6 :=
  Vector.ofFn fun k : Fin 6 => mergeWord copy[k] (beatWord data k.val) (wordEnables enables k.val)

/-- The command a copy holds: code and sequence byte of the go word, and words 1 to 5 (R158, 11.2). -/
def commandOf (copy : Vector Word 6) : Command where
  code := copy[0].setWidth 8
  sequence := copy[0].extractLsb' 8 8
  arg1 := copy[1]
  arg2 := copy[2]
  arg3 := copy[3]
  arg4 := copy[4]
  arg5 := copy[5]

/-- A beat of command slot `n` is observed (R158): the copy is merged, and a written go word with a code other than 0 queues the
command of a FREE slot or sets the overrun flag of another. -/
def State.slotBeat (n : Fin 8) (data : List Byte) (enables : BitVec 32) (s : State) : State :=
  let copy := mergeCopy (s.slot n).copy data enables
  let s := s.onSlot n fun x => { x with copy := copy }
  let cmd := commandOf copy
  if enables.getLsbD 0 ∧ cmd.code ≠ 0 then
    match (s.slot n).state with
    | .free =>
      let s := s.onSlot n fun x => { x with state := .queued, command := cmd }
      { s with csu.fifo := s.csu.fifo ++ [n] }
    | .queued => s.onSlot n fun x => { x with overrun := true }
    | .running => s.onSlot n fun x => { x with overrun := true }
  else s

/-- The acknowledge word is observed: the shadow takes the enabled bytes, and a written word clears the causes whose bits it carries
(R131, R165). -/
def State.ackWritten (word : Word) (enables : BitVec 4) (s : State) : State :=
  let s := { s with tru.ackShadow := mergeWord s.tru.ackShadow word enables }
  s.setCauses (s.csu.causes &&& ~~~(word &&& byteMask enables))

/-- The event enable word is observed (R131, R165): IRQ follows the shadow (`State.irq`). -/
def State.enableWritten (word : Word) (enables : BitVec 4) (s : State) : State :=
  { s with tru.enableShadow := mergeWord s.tru.enableShadow word enables }

/-- The stop word of channel `ch` is observed (R131); a written one is handed to the channel (R146). -/
def State.stopWritten (ch : Fin 3) (word : Word) (enables : BitVec 4) (s : State) : State :=
  if enables = 0 then s
  else { s with tru.stopShadow := s.tru.stopShadow.set ch (mergeWord (s.stopWord ch) word enables) }.stopWordWritten ch

/-- The beat at offset 0x200 is observed (R130, R131): acknowledge, event enable and the three stop words, in that order. So an
acknowledgement of CH_EOL is taken before a stop word of the same beat that moves a HELD channel on past its EOL raises that cause, and the
cause stays set: one of the two orders of R165 (DESIGN CHOICE, log entry 26). -/
def State.controlWordsBeat (data : List Byte) (enables : BitVec 32) (s : State) : State :=
  let s := s.ackWritten (beatWord data 0) (wordEnables enables 0)
  let s := s.enableWritten (beatWord data 1) (wordEnables enables 1)
  let s := s.stopWritten 0 (beatWord data 4) (wordEnables enables 4)
  let s := s.stopWritten 1 (beatWord data 5) (wordEnables enables 5)
  s.stopWritten 2 (beatWord data 6) (wordEnables enables 6)

/-! ### Beginning a command -/

/-- The codes of the commands (11.2). -/
def codeStart : Byte := 0x01
/-- The code of STOP. -/
def codeStop : Byte := 0x02
/-- The code of RELEARN. -/
def codeRelearn : Byte := 0x03
/-- The code of LOAD_TABLES. -/
def codeLoadTables : Byte := 0x10
/-- The code of LOAD_REFERENCE. -/
def codeLoadReference : Byte := 0x11
/-- The code of SAVE_REFERENCE. -/
def codeSaveReference : Byte := 0x12
/-- The code of END_SHIFT. -/
def codeEndShift : Byte := 0x20
/-- The code of CHANNEL. -/
def codeChannel : Byte := 0x30
/-- The code of BRIDGE_ENABLE. -/
def codeBridgeEnable : Byte := 0x40
/-- The code of MANUAL_CUT. -/
def codeManualCut : Byte := 0x41
/-- The code of STATUS_REFRESH. -/
def codeStatusRefresh : Byte := 0x50
/-- The code of RESET_ENGINE. -/
def codeResetEngine : Byte := 0x7F

/-- Every defined code. -/
def definedCodes : List Byte :=
  [codeStart, codeStop, codeRelearn, codeLoadTables, codeLoadReference, codeSaveReference, codeEndShift, codeChannel,
    codeBridgeEnable, codeManualCut, codeStatusRefresh, codeResetEngine]

/-- The 40-bit address in two words: the low 32 bits and the high 8 in byte 0 of the next (11.2). -/
def addressOf (low high : Word) : Nat := low.toNat + 4294967296 * (high.toNat % 256)

/-- A phase is a waiting phase (R159). -/
def Phase.waits : Phase → Bool
  | .tablesStaged _ => true
  | .referenceStaged => true
  | .saving _ => true
  | .stopping => true
  | .dirHeader _ => false
  | .dirEntries _ => false
  | .tables _ _ _ _ _ => false
  | .referenceRead _ => false
  | .channelOp _ => false
  | .bridgeMask => false
  | .refresh => false

/-- A command may begin: none is running, or every running one is in its waiting phase and it is a STOP or a RESET_ENGINE (R159). -/
def State.mayBegin (s : State) (c : Command) : Bool :=
  s.csu.running.isEmpty
    || (s.csu.running.all (fun r => r.phase.waits) && (c.code == codeStop || c.code == codeResetEngine))

/-- The slot at the head of the command FIFO, if its command may begin and is of the row's kind. -/
def State.commandAtHead (s : State) (row : Command → Bool) : Option (Fin 8) :=
  match s.csu.fifo with
  | [] => none
  | n :: _ => if row (s.slot n).command && s.mayBegin (s.slot n).command then some n else none

/-- The slot's number leaves the FIFO and the slot becomes RUNNING (R159). -/
def State.takeCommand (n : Fin 8) (s : State) : State :=
  { s.onSlot n fun x => { x with state := .running } with csu.fifo := s.csu.fifo.tail }

/-- The command at the head of the FIFO begins, if it is of the row's kind and may; else the event has not occurred and nothing
changes (log entry 7). When it begins, once it may, is left to its row's command: it is not among the events that are owed (DESIGN CHOICE,
log entry 29). -/
def State.begins (row : Command → Bool) (body : Fin 8 → Command → State → State) (s : State) : State :=
  match s.commandAtHead row with
  | some n => body n (s.slot n).command (s.takeCommand n)
  | none => s

/-- The command in slot `n` goes on running in a phase. -/
def State.runs (n : Fin 8) (p : Phase) (s : State) : State :=
  { s with csu.running := s.csu.running ++ [{ slot := n, phase := p }] }

end Sys2Proof.Machine
end

