-- ==== Sys2Proof/Machine/Commands.lean ====
section
/-! DEFINITION. What each command of the command slots does when it begins (R161 to R163, R167), and what the returns of its reads and
the completions of its writes do (R37, R39, R163, R169). -/

namespace Sys2Proof.Machine

/-! ### Inspection -/

/-- The analysis mode becomes LEARN and the learn count is loaded (R31). -/
def State.startLearning (s : State) : State :=
  { s with csu.inspection := .learn, fdu.mode := .learn, fdu.learnCount := s.fdu.detect.learnLines }

/-- START in the LCU (R13): the divider is loaded, the last stamp set, the assembly empty, the resume range armed. -/
def State.startCapture (s : State) : State :=
  { s with
    lcu.divider := s.fdu.detect.ldiv, lcu.lastStamp := s.lcu.counter, lcu.assembly := none, lcu.resumeArmed := true }

/-- START begins (R13, R31, R161, R162). -/
def beginStart (n : Fin 8) (_ : Command) (s : State) : State :=
  if s.csu.inspection = .off then (s.startCapture.startLearning).complete n .ok 0 else s.complete n .badState 0

/-- STOP begins (R14, R161, R162): STOPPING, which ends at once when no line is queued. -/
def beginStop (n : Fin 8) (_ : Command) (s : State) : State :=
  if s.inspecting then
    (({ s with csu.inspection := .stopping }.stopCapture).runs n .stopping).endStoppingIfDrained
  else s.complete n .badState 0

/-- RELEARN begins (R31, R161, R162). -/
def beginRelearn (n : Fin 8) (_ : Command) (s : State) : State :=
  if s.csu.inspection = .run then s.startLearning.complete n .ok 0 else s.complete n .badState 0

/-! ### Tables -/

/-- A structure of `size` bytes at an address is refused: the address is not 32-byte aligned, or it ends beyond 2^40 (R37, R39, R163). -/
def badAddress (addr size : Nat) : Bool := decide (addr % beatBytes ≠ 0) || decide (addressSpace < addr + size)

/-- The bytes of a directory: a header and 8 entries (R163). -/
def directorySize : Nat := 160

/-- One own read for a command (R37, R169). -/
def commandRead (purpose : OwnPurpose) (addr beats : Nat) : OwnRequest :=
  { purpose := purpose, kind := .read, addr := addr, beats := beats, data := [] }

/-- The beats of an own read or write but the last of a longer structure (R37, R169). -/
def readBeats : Nat := 16

/-- A structure of `beats` beats is read as own reads of 16 beats in ascending order, the last taking the rest (R169). -/
def State.placeReads (purpose : OwnPurpose) (addr beats : Nat) (s : State) : State :=
  (List.range ((beats + (readBeats - 1)) / readBeats)).foldl
    (fun s i => s.place (commandRead purpose (addr + readBeats * beatBytes * i) (min readBeats (beats - readBeats * i)))) s

/-- LOAD_TABLES begins (R163, R169): the header of the directory is read. -/
def beginLoadTables (n : Fin 8) (c : Command) (s : State) : State :=
  let addr := addressOf c.arg1 c.arg2
  if badAddress addr directorySize then s.complete n .badArg 0
  else (s.runs n (.dirHeader addr)).place (commandRead .tableRead addr 1)

/-- One good table is staged, or takes effect at once where R163's table says so (R137, R154). -/
def State.stage (s : State) : TableBody → State
  | .transit t => { s with tru.params := t, csu.refreshCount := 0 }
  | .detect t => { s with fdu.stagedDetect := some t }
  | .column t => { s with fdu.stagedColumns := some t }
  | .cls t => { s with fdu.stagedClasses := some t }
  | .grade t => { s with ppl.stagedGrade := some t }
  | .product t => { s with ppl.stagedProduct := some t }
  | .link t => { s with cdu.stagedLink := some t }
  | .shift t => s.takeShift t

/-- The staged tables of the LCU and the FDU take effect at once in OFF (R35, R37, R57). -/
def State.takeFduTablesIfOff (s : State) : State := if s.csu.inspection = .off then s.takeFduTables else s

/-- The staged tables of the planner take effect at once in IDLE (R65, R99). -/
def State.takePlannerTablesIfIdle (s : State) : State := if s.ppl.piece.isNone then s.takePlannerTables else s

/-- All tables of a load are staged at one event, and the waiting phase begins (R163). -/
def State.stageAll (n : Fin 8) (good : List TableBody) (s : State) : State :=
  let s := good.foldl State.stage s
  ((s.takeFduTablesIfOff.takePlannerTablesIfIdle).takeLinkIfBetween).setPhase n (.tablesStaged good.length)

/-- The read of the table in hand begins; with no table left the load is staged, or refused with the index of its first refused table
(R163, R169). -/
def State.readNextTable (n : Fin 8) (index : Nat) (entries : List DirEntry) (good : List TableBody) (refused : Option Nat)
    (s : State) : State :=
  match entries with
  | [] =>
    match refused with
    | some i => s.complete n .tableInvalid (BitVec.ofNat 32 i)
    | none => s.stageAll n good
  | e :: _ => (s.setPhase n (.tables index entries [] good refused)).placeReads .tableRead e.addr e.kind.beats

/-- The directory has been read and is judged (R163). -/
def State.judgeDirectory (n : Fin 8) (count : Nat) (data : List Byte) (s : State) : State :=
  match readDirectory data count with
  | .bad i => s.complete n .tableInvalid (BitVec.ofNat 32 i)
  | .good entries =>
    if entries.any (fun e => decide (e.kind = .transit)) ∧ s.csu.inspection ≠ .off then s.complete n .badState 0
    else s.readNextTable n 0 entries [] none

/-- The largest count of a directory (R163, R169). -/
def directoryEntries : Nat := 8

/-- The header of the directory has returned (R163, R169). -/
def State.headerReturned (n : Fin 8) (addr : Nat) (data : List Byte) (s : State) : State :=
  let count := field data 0 4
  if directoryEntries < count then s.complete n .tableInvalid (BitVec.ofNat 32 directoryEntries)
  else if count = 0 then s.complete n .ok 0
  else (s.setPhase n (.dirEntries count)).place (commandRead .tableRead (addr + beatBytes) ((count + 1) / 2))

/-- The first refused table of a load, once table `index` is refused too (R163). -/
def firstRefused (refused : Option Nat) (index : Nat) : Nat := refused.getD index

/-- A read of the table in hand has returned; with its last read the table is judged, and the next table is read whatever the judgement
(R163, R169; log entry 11). -/
def State.tableReturned (n : Fin 8) (index : Nat) (entries : List DirEntry) (bytes : List Byte) (good : List TableBody)
    (refused : Option Nat) (s : State) : State :=
  match entries with
  | [] => s
  | e :: rest =>
    if bytes.length < e.kind.length then s.setPhase n (.tables index entries bytes good refused)
    else
      match readTable s.tru.controlBase e.kind bytes with
      | none => s.readNextTable n (index + 1) rest good (some (firstRefused refused index))
      | some b => s.readNextTable n (index + 1) rest (good ++ [b]) refused

/-- The running command that reads tables is given what a read returned (R169). -/
def State.tableReadReturn (data : List Byte) (s : State) : State :=
  match s.csu.running.find? fun r => !r.phase.waits with
  | none => s
  | some r =>
    match r.phase with
    | .dirHeader addr => s.headerReturned r.slot addr data
    | .dirEntries count => s.judgeDirectory r.slot count data
    | .tables index entries bytes good refused => s.tableReturned r.slot index entries (bytes ++ data) good refused
    | _ => s

/-- No table of a load waits to take effect (R163). -/
def State.nothingStaged (s : State) : Bool :=
  s.fdu.stagedDetect.isNone && s.fdu.stagedColumns.isNone && s.fdu.stagedClasses.isNone && s.ppl.stagedGrade.isNone
    && s.ppl.stagedProduct.isNone && s.cdu.stagedLink.isNone

/-- The slot and count of a LOAD_TABLES in its waiting phase. -/
def State.stagedLoad (s : State) : Option (Fin 8 × Nat) :=
  s.csu.running.findSome? fun r =>
    match r.phase with
    | .tablesStaged n => some (r.slot, n)
    | _ => none

/-- The waiting phase of a LOAD_REFERENCE. -/
def isReferenceStaged : Phase → Bool
  | .referenceStaged => true
  | _ => false

/-- A LOAD_TABLES in its waiting phase completes when the last of its tables has taken effect (R163). -/
def State.completeTables (s : State) : State :=
  match s.stagedLoad with
  | some (n, count) => if s.nothingStaged then s.complete n .ok (BitVec.ofNat 32 count) else s
  | none => s

/-- A LOAD_REFERENCE in its waiting phase completes when its reference has taken effect (R37). -/
def State.completeReference (s : State) : State :=
  if s.fdu.stagedReference.isNone then s.completeWith isReferenceStaged 0 else s

/-- A load in its waiting phase completes when the last of what it staged has taken effect (R37, R163). -/
def State.completeLoads (s : State) : State := s.completeTables.completeReference

/-! ### The reference -/

/-- The bytes of the reference image (R37, 11.6). -/
def referenceSize : Nat := 16384

/-- LOAD_REFERENCE begins (R37): all its 32 reads are placed at this event, a DESIGN CHOICE (log entry 11). -/
def beginLoadReference (n : Fin 8) (c : Command) (s : State) : State :=
  let addr := addressOf c.arg1 c.arg2
  if badAddress addr referenceSize then s.complete n .badArg 0
  else (s.runs n (.referenceRead [])).placeReads .referenceRead addr (referenceSize / beatBytes)

/-- A read of the reference image has returned; with the last the values are staged (R37). -/
def State.referenceReturn (data : List Byte) (s : State) : State :=
  match s.csu.running.find? fun r => !r.phase.waits with
  | none => s
  | some r =>
    match r.phase with
    | .referenceRead bytes =>
      let bytes := bytes ++ data
      if bytes.length < referenceSize then s.setPhase r.slot (.referenceRead bytes)
      else
        ({ s with fdu.stagedReference := some (readReference bytes) }.takeFduTablesIfOff).setPhase r.slot .referenceStaged
    | _ => s

/-- SAVE_REFERENCE begins (R39): the snapshot is taken at once, or pending while a line is in analysis. -/
def beginSaveReference (n : Fin 8) (c : Command) (s : State) : State :=
  let addr := addressOf c.arg1 c.arg2
  if badAddress addr referenceSize then s.complete n .badArg 0
  else
    let s := s.runs n (.saving 0)
    match s.fdu.analysis with
    | none => s.takeSnapshot addr
    | some _ => { s with fdu.snapshot := some addr }

/-- The writes of a snapshot (R39). -/
def snapshotWrites : Nat := 32

/-- A write of a snapshot has completed; with the last SAVE_REFERENCE completes (R39, R133). -/
def State.snapshotWritten (s : State) : State :=
  match s.csu.running.findSome? fun r =>
      match r.phase with
      | .saving d => some (r.slot, d)
      | _ => none with
  | none => s
  | some (n, d) => if snapshotWrites ≤ d + 1 then s.complete n .ok 0 else s.setPhase n (.saving (d + 1))

/-! ### The other commands -/

/-- END_SHIFT begins (R156, R161). -/
def beginEndShift (n : Fin 8) (_ : Command) (s : State) : State := s.endShift.complete n .ok s.sac.number

/-- A free value is taken (log entry 3). -/
def State.takeFree (s : State) : State := { s with freeCount := s.freeCount + 1 }

/-- A CHANNEL command (R161): BAD_ARG for a channel above 2, with a free result value (log entry 3), or for an undefined operation;
else the operation of the row. -/
def beginChannel (op : Nat) (body : Fin 3 → Fin 8 → Command → State → State) (n : Fin 8) (c : Command) (s : State) : State :=
  let ch := c.arg1.toNat % 256
  if h : ch < 3 then
    if c.arg1.toNat / 256 % 256 = op then body ⟨ch, h⟩ n c s else s.complete n .badArg (s.channelValue ⟨ch, h⟩)
  else s.takeFree.complete n .badArg (Config.freeResult s.freeCount)

/-- CHANNEL START (R141). -/
def channelStartBody (ch : Fin 3) (n : Fin 8) (c : Command) (s : State) : State :=
  let table := addressOf c.arg2 c.arg3
  if badTable table then s.complete n .badArg (s.channelValue ch)
  else
    let (s, st) := s.channelStarted ch table (c.arg1.getLsbD 16)
    s.complete n st (s.channelValue ch)

/-- CHANNEL PAUSE (R147). -/
def channelPauseBody (ch : Fin 3) (n : Fin 8) (_ : Command) (s : State) : State :=
  if (s.channel ch).state = .active then
    let s := s.withdraw ch
    if (s.channel ch).activity = .none then
      let s := s.onChannel ch fun c => { c with state := .paused }
      s.complete n .ok (s.channelValue ch)
    else (s.onChannel ch fun c => { c with pendingOp := .pause }).runs n (.channelOp ch)
  else s.complete n .badState (s.channelValue ch)

/-- CHANNEL RESUME (R147). -/
def channelResumeBody (ch : Fin 3) (n : Fin 8) (_ : Command) (s : State) : State :=
  if (s.channel ch).state = .paused then
    let s := s.onChannel ch fun c => { c with state := .active }
    let s := if (s.channel ch).entry.isNone then s.fetch ch else s
    s.complete n .ok (s.channelValue ch)
  else s.complete n .badState (s.channelValue ch)

/-- CHANNEL TERMINATE (R148). -/
def channelTerminateBody (ch : Fin 3) (n : Fin 8) (_ : Command) (s : State) : State :=
  let s := s.withdraw ch
  if (s.channel ch).activity = .none then
    let s := s.terminate ch
    s.complete n .ok (s.channelValue ch)
  else (s.onChannel ch fun c => { c with pendingOp := .terminate }).runs n (.channelOp ch)

/-- BRIDGE_ENABLE begins (R107): the mask is taken at the next boundary, or at once between transfers. -/
def beginBridgeEnable (n : Fin 8) (c : Command) (s : State) : State :=
  ({ s with cdu.newMask := some (c.arg1.setWidth 4) }.runs n .bridgeMask).takeLinkIfBetween

/-- MANUAL_CUT begins (R96). -/
def beginManualCut (n : Fin 8) (c : Command) (s : State) : State :=
  let s := s.takePlannerTables
  match s.manualRefusal c.arg1 with
  | some reason => s.complete n .infeasible reason
  | none => (s.manualCommit c.arg1).complete n .ok s.ppl.nextPiece

/-- STATUS_REFRESH begins (R164). -/
def beginStatusRefresh (n : Fin 8) (_ : Command) (s : State) : State := (s.runs n .refresh).requestStatus

/-- The flaw detection unit at RESET_ENGINE (R22, R40, R58, R167): the line in analysis abandoned, blobs and flaws discarded, a pending
snapshot taken. -/
def State.resetDetection (s : State) : State :=
  State.takePendingSnapshot { s with fdu.analysis := none, fdu.learnCount := 0, fdu.blobs := [], fdu.store := [] }

/-- The effects of RESET_ENGINE on every block (R167). A staged DETECT table that changes ldiv or enc_edge reloads the divider (R5), although
R15 keeps the divider's value at a reset: a DESIGN CHOICE (log entry 28). -/
def State.resetEngine (s : State) : State :=
  let s := { s with csu.inspection := .off }.resetCapture
  ((s.resetDetection.plannerIdle).resetDispatch).takeFduTables

/-- RESET_ENGINE begins (R167): its effects, the completion of a running STOP and of loads that wait, and its own. -/
def beginResetEngine (n : Fin 8) (_ : Command) (s : State) : State :=
  (((s.resetEngine).completeWith isStopping 0).completeLoads).complete n .ok 0

/-- A command with an undefined code begins (R161). -/
def beginBadCommand (n : Fin 8) (_ : Command) (s : State) : State := s.complete n .badCommand 0

end Sys2Proof.Machine
end

