-- ==== Sys2Proof/Machine/Transit.lean ====
section
/-! DEFINITION. The memory transit unit (chapter 7): windows, masking, observation, hazard hold, arbitration, answers, and the status
block (11.3) that the grant of a status write takes. -/

namespace Sys2Proof.Machine

/-! ### Windows and masks -/

/-- A window contains an address; a window of size 0 contains none (7.2). -/
def Window.contains (w : Window) (addr : Nat) : Bool := decide (w.base ≤ addr) && decide (addr < w.base + w.size)

/-- The class of a beat inside the control window, by its offset (R127). -/
def controlClass (offset : Nat) : BeatClass :=
  if offset < 0x100 then .statusBlock
  else if offset < 0x200 then .commandSlot (Fin.ofNat 8 ((offset - 0x100) / 32))
  else if offset < 0x220 then .controlWords
  else .controlOther

/-- The class of a beat (R128): control window, image window, protect windows 0 to 5, else plain. -/
def State.beatClass (s : State) (addr : Nat) : BeatClass :=
  let control : Window := { base := s.tru.controlBase, size := controlSize }
  if control.contains addr then controlClass (addr - s.tru.controlBase)
  else if s.tru.params.image.contains addr then .image
  else
    match (List.finRange 6).find? fun k => s.tru.params.protect[k].contains addr with
    | some k => .protect k
    | none => .plain

/-- The bytes of a beat that no upstream write may alter (R127, R129). -/
def BeatClass.shielded : BeatClass → BitVec 32
  | .statusBlock => 0xFFFFFFFF
  | .commandSlot _ => 0xF0000000
  | .protect _ => 0xFFFFFFFF
  | .controlWords => 0
  | .controlOther => 0
  | .image => 0
  | .plain => 0

/-- A beat with the enables of shielded bytes cleared (R129). -/
def maskBeat (c : BeatClass) (b : Beat) : Beat := { b with enables := b.enables &&& ~~~c.shielded }

/-- A beat is hit: an enable set on arrival is cleared (R129). -/
def beatHit (c : BeatClass) (b : Beat) : Bool := decide (b.enables &&& c.shielded ≠ 0)

/-- The address of beat `i` of a request. -/
def beatAddr (r : Request) (i : Nat) : Nat := r.addr.toNat + beatBytes * i

/-- The classes of a request's beats under the window table in force (R128). -/
def State.classify (s : State) (r : Request) : List BeatClass :=
  (List.range r.length).map fun i => s.beatClass (beatAddr r i)

/-- The beats of a write after masking, each with its class and its address (R129). -/
def TransitEntry.maskedBeats (e : TransitEntry) : List (BeatClass × Nat × Beat) :=
  (List.range e.req.beats.length).zip (e.req.beats.zip (e.classes.getD [])) |>.map fun x =>
    (x.2.2, beatAddr e.req x.1, maskBeat x.2.2 x.2.1)

/-- A write whose every enable is clear after masking (R126). -/
def TransitEntry.fullyMasked (e : TransitEntry) : Bool :=
  decide (e.req.kind = .write) && e.maskedBeats.all fun x => x.2.2.enables == 0

/-- How many beats of a write are hit (R129). -/
def TransitEntry.hits (e : TransitEntry) : Nat :=
  match e.req.kind with
  | .read => 0
  | .write => ((e.req.beats.zip (e.classes.getD [])).filter fun x => beatHit x.2 x.1).length

/-! ### What goes downstream -/

/-- What a transit request is downstream: its kind, address, length, source tag and data, with its enables as masked (R126). -/
def TransitEntry.wire (e : TransitEntry) : Request := { e.req with beats := e.maskedBeats.map fun x => x.2.2 }

/-- The source tag of the part's own requests (R132). -/
def ownTag : Byte := 0xFF

/-- What an own request is downstream: source tag 0xFF and, for a write, its bytes beat by beat with all byte-enables set (R132). -/
def OwnRequest.wire (r : OwnRequest) : Request where
  kind := r.kind
  addr := BitVec.ofNat 40 r.addr
  length := r.beats
  tag := ownTag
  beats :=
    match r.kind with
    | .read => []
    | .write =>
      (List.range r.beats).map fun i => { data := (r.data.drop (beatBytes * i)).take beatBytes, enables := BitVec.allOnes 32 }

/-- What a granted request is downstream. -/
def InFlight.wire : InFlight → Request
  | .transit sent => sent
  | .own r => r.wire

/-- The requests granted and not yet answered as they went downstream, in grant order (R126, R132). -/
def Tru.downstream (t : Tru) : List Request := t.flight.map InFlight.wire

/-! ### The transit candidate -/

/-- The first entry as `f` says changes. -/
def onFirst (f : TransitEntry → Bool) (g : TransitEntry → TransitEntry) : List TransitEntry → List TransitEntry
  | [] => []
  | e :: rest => if f e then g e :: rest else e :: onFirst f g rest

/-- The entry is PENDING. -/
def TransitEntry.isPending (e : TransitEntry) : Bool := e.state == .pending

/-- The transit candidate: the oldest PENDING entry (R126). -/
def State.candidate (s : State) : Option TransitEntry := s.tru.transit.find? TransitEntry.isPending

/-- A request that has become the transit candidate is classified against the window table in force (R128). -/
def State.classifyCandidate (s : State) : State :=
  { s with
    tru.transit := onFirst TransitEntry.isPending
      (fun e => if e.classes.isNone then { e with classes := some (s.classify e.req) } else e) s.tru.transit }

/-- The byte ranges of the outstanding own writes, as address and length (R133). -/
def Tru.outstanding (t : Tru) : List (Nat × Nat) :=
  t.flight.filterMap fun f =>
    match f with
    | .own r => if r.kind = .write then some (r.addr, r.beats * beatBytes) else none
    | .transit _ => none

/-- Two byte ranges, each an address and a length, share a byte. -/
def rangesMeet (a b : Nat × Nat) : Bool := decide (a.1 < b.1 + b.2) && decide (b.1 < a.1 + a.2)

/-- A byte lies in a range. -/
def rangeHolds (a : Nat × Nat) (k : Nat) : Bool := decide (a.1 ≤ k) && decide (k < a.1 + a.2)

/-- A candidate would touch a byte of the range: a read every byte of its own, a write the bytes enabled after masking (R134). -/
def TransitEntry.touches (e : TransitEntry) (range : Nat × Nat) : Bool :=
  match e.req.kind with
  | .read => rangesMeet (e.req.addr.toNat, e.req.length * beatBytes) range
  | .write =>
    e.maskedBeats.any fun x =>
      (List.range beatBytes).any fun k => x.2.2.enables.getLsbD k && rangeHolds range (x.2.1 + k)

/-- The transit candidate is held (R134). -/
def State.held (s : State) (e : TransitEntry) : Bool := s.tru.outstanding.any e.touches

/-- The transit candidate as the arbiter sees it: not held and not a fully masked write (R135). -/
def State.transitReady (s : State) : Option TransitEntry :=
  match s.candidate with
  | some e => if s.held e || e.fullyMasked then none else some e
  | none => none

/-- The capacity of the list of outstanding own writes (R133). -/
def outstandingCapacity : Nat := 16

/-- The own head is eligible (R133). -/
def State.eligible (s : State) (r : OwnRequest) : Bool :=
  match r.kind with
  | .write => decide (s.tru.outstanding.length < outstandingCapacity)
  | .read => !s.tru.outstanding.any (rangesMeet (r.addr, r.beats * beatBytes))

/-- The own head, if it is eligible (R133). -/
def State.ownReady (s : State) : Option OwnRequest :=
  match s.tru.own with
  | [] => none
  | r :: _ => if s.eligible r then some r else none

/-! ### Observation and forwarding -/

/-- An observed beat is handed on according to its class (R130); one with no enable left is handed to no block. -/
def State.observe (s : State) (x : BeatClass × Nat × Beat) : State :=
  if x.2.2.enables = 0 then s
  else
    match x.1 with
    | .image => if s.inspecting then s.imageBeat x.2.1 x.2.2.data x.2.2.enables else s
    | .commandSlot n => s.slotBeat n x.2.2.data x.2.2.enables
    | .controlWords => s.controlWordsBeat x.2.2.data x.2.2.enables
    | .statusBlock => s
    | .controlOther => s
    | .protect _ => s
    | .plain => s

/-- Beats hit are counted and raise PROTECT_HIT (R129). -/
def State.countHits (n : Nat) (s : State) : State :=
  if n = 0 then s
  else
    ({ s with tru.hits := s.tru.hits + BitVec.ofNat 32 n }.count fun k =>
      { k with protectedBeats := satAdd max32 k.protectedBeats n }).raise .protectHit

/-- The candidate is forwarded: hits are counted, its beats observed in ascending order, and it takes its new state (R126, R129,
R130). So PROTECT_HIT is raised before an acknowledgement that the same request carries is taken, one of the two orders of R165 (DESIGN
CHOICE, log entry 26). -/
def State.forward (e : TransitEntry) (st : TransitState) (s : State) : State :=
  let s := { s with tru.transit := onFirst TransitEntry.isPending (fun e => { e with state := st }) s.tru.transit }
  let s := s.countHits e.hits
  match e.req.kind with
  | .read => s
  | .write => e.maskedBeats.foldl State.observe s

/-- READY entries at the head of the transit queue are answered upstream (R125). -/
def answerHead : List TransitEntry → List Answer → List TransitEntry × List Answer
  | [], out => ([], out)
  | e :: rest, out =>
    if e.state = .ready then answerHead rest (out ++ [{ tag := e.req.tag, data := e.answer }]) else (e :: rest, out)

/-- READY entries at the head are answered, oldest first (R125). -/
def State.answerUpstream (s : State) : State :=
  let (transit, answers) := answerHead s.tru.transit s.tru.answers
  { s with tru.transit := transit, tru.answers := answers }

/-- The capacity of the transit queue (R125). -/
def transitCapacity : Nat := 8

/-! ### The status block -/

/-- The status-block fields of a channel, 32 bytes (11.3). -/
def State.channelStatus (s : State) (ch : Fin 3) : List Byte :=
  let c := s.channel ch
  toLe 1 c.state.code ++ toLe 1 c.index ++ toLe 1 (flagBit 0 (s.atStop ch)) ++ reserved 1 ++ toLe 2 c.remaining ++ reserved 2
    ++ toLe 4 c.produced.toNat ++ toLe 4 c.written.toNat ++ toLe 4 c.dropped.toNat ++ reserved 12

/-- The status block, 256 bytes (R164, 11.3, R168). The event enable shadow is written whole, its reserved bits 17 to 31 as the host has
set them (DESIGN CHOICE, log entry 27). -/
def State.statusBlock (s : State) : List Byte :=
  toLe 1 s.csu.inspection.code ++ toLe 1 (flagBit 0 s.ppl.piece.isSome)
    ++ toLe 1 ((s.ppl.provisional.map fun g => g.code.val).getD absentCode) ++ toLe 1 s.cdu.queue.length
    ++ (List.finRange 4).flatMap (fun b => toLe 1 (s.bridge b).state.code)
    ++ toLe 4 s.lcu.counter.toNat ++ toLe 4 s.fdu.scan.toNat
    ++ toLe 4 ((s.ppl.piece.map fun p => p.start.toNat).getD 0) ++ toLe 4 ((s.ppl.piece.map fun p => p.deadline.toNat).getD 0)
    ++ toLe 4 s.csu.causes.toNat ++ toLe 4 s.tru.enableShadow.toNat ++ toLe 4 s.tru.hits.toNat
    ++ counterBytes s.sac.counters.lost.toList ++ reserved 8
    ++ (List.finRange 3).flatMap s.channelStatus ++ reserved 96

/-- The bytes of a result write: words 0 to 5 as the slot copy stands now, the result value, the result word (R160). -/
def State.resultBytes (s : State) (n : Fin 8) (value word : Word) : List Byte :=
  (s.slot n).copy.toList.flatMap (fun w => toLe 4 w.toNat) ++ toLe 4 value.toNat ++ toLe 4 word.toNat

/-- The phase of a STATUS_REFRESH. -/
def isRefresh : Phase → Bool
  | .refresh => true
  | _ => false

/-- The bytes a write carries downstream: those of a result and of the status block are taken at the grant (R160, R164). -/
def State.grantedData (s : State) (r : OwnRequest) : List Byte :=
  match r.purpose with
  | .result n value word => s.resultBytes n value word
  | .status => s.statusBlock
  | _ => r.data

/-- The grant of a status write: the status write returns to NONE and a STATUS_REFRESH it serves completes (R164). -/
def State.statusGranted (p : OwnPurpose) (s : State) : State :=
  if p = .status then { s with csu.statusWaiting := false }.completeWith isRefresh 0 else s

/-! ### Grants -/

/-- The transit candidate is granted and goes downstream (R126, R135). -/
def State.grantTransit (e : TransitEntry) (s : State) : State :=
  let share := if s.ownReady.isSome then s.tru.share + 1 else s.tru.share
  State.forward e .forwarded { s with tru.flight := s.tru.flight ++ [InFlight.transit e.wire], tru.share := share }

/-- The own head is granted (R132, R133, R135). A status write takes its 256 bytes before the STATUS_REFRESH that it serves completes and
raises CMD_DONE (R164; DESIGN CHOICE, log entry 26). -/
def State.grantOwn (r : OwnRequest) (s : State) : State :=
  let granted := { r with data := s.grantedData r }
  State.statusGranted r.purpose
    { s with tru.own := s.tru.own.tail, tru.flight := s.tru.flight ++ [InFlight.own granted], tru.share := 0 }

/-- The downstream arbiter (R135); with no candidate ready nothing is granted. -/
def State.grant (s : State) : State :=
  match s.transitReady, s.ownReady with
  | some e, none => s.grantTransit e
  | none, some r => s.grantOwn r
  | some e, some r => if s.tru.params.ownShare ≤ s.tru.share then s.grantOwn r else s.grantTransit e
  | none, none => s

/-- The transit candidate, if it is a fully masked write; one is never held (R126, R134). -/
def State.maskedCandidate (s : State) : Option TransitEntry :=
  match s.candidate with
  | some e => if e.fullyMasked then some e else none
  | none => none

/-- A fully masked candidate is forwarded without a grant and becomes READY at once (R126). -/
def State.forwardMasked (s : State) : State :=
  match s.maskedCandidate with
  | some e => (s.forward e .ready).answerUpstream
  | none => s

/-- Memory answers the oldest FORWARDED entry with `data` (R126). -/
def State.transitAnswered (data : List Byte) (s : State) : State :=
  State.answerUpstream
    { s with
      tru.transit := onFirst (fun e => e.state == .forwarded)
        (fun e => { e with state := .ready, answer := if e.req.kind = .read then data else [] }) s.tru.transit }

/-- A waiting own request takes a place in the queue (R132). -/
def State.placeWaiting (s : State) : State :=
  match s.tru.waiting with
  | [] => s
  | r :: rest =>
    if s.tru.own.length < ownCapacity then { s with tru.own := s.tru.own ++ [r], tru.waiting := rest } else s

end Sys2Proof.Machine
end

