-- ==== Sys2Proof/WellFormed.lean ====
section
/-! DEFINITION. Which commands are well formed: the shape of an upstream request (00_scope, "Memory"; 7.1) and of a slot beat
(R158). Every other operand's type already admits only its range. -/

namespace Sys2Proof

/-- A beat carries 32 bytes. -/
def Beat.wellFormed (b : Beat) : Bool := b.data.length == beatBytes

/-- A request has 1 to 16 beats at a beat-aligned address, ends within the address space, and carries one data beat per beat if
it is a write and none if it is a read. -/
def Request.wellFormed (r : Request) : Bool :=
  1 ≤ r.length && r.length ≤ 16 && r.addr.toNat % beatBytes == 0
    && r.addr.toNat + r.length * beatBytes ≤ addressSpace
    && (match r.kind with
        | .read => r.beats.isEmpty
        | .write => r.beats.length == r.length && r.beats.all Beat.wellFormed)

/-- The check on a command. -/
def Instr.wellFormed : Instr → Bool
  | .upstreamRequest r => r.wellFormed
  | .controlWindowWrite _ data _ => data.length == beatBytes
  | .downstreamAnswer data => data.length % beatBytes == 0
  | .ownReadReturn data => data.length % beatBytes == 0
  | .powerOnReset _ | .encoderEdge _ | .lineTrigger | .deadlineExpiry | .entryDue | .entryMissed
  | .cutTimeout | .millisecondTick | .shiftTimerExpiry | .fullyMaskedForward | .downstreamGrant
  | .acknowledgeWrite _ _ | .eventEnableWrite _ _ | .stopWordWrite _ _ _ | .ownRequestPlaced
  | .ownWriteCompletion | .analysisEnd | .start | .stop | .relearn | .loadTables | .loadReference
  | .saveReference | .endShift | .channelStart | .channelPause | .channelResume | .channelTerminate
  | .bridgeEnable | .manualCut | .statusRefresh | .resetEngine | .badCommand | .cutTransferEnd _ _
  | .pollTransferEnd _ _ _ | .pollGapEnd | .transferAbandon _ _ | .stuckExit | .porstNLow
  | .linkLinesSeenHigh => true

end Sys2Proof
end

