-- ==== Sys2Proof/Machine/Events.lean ====
section
/-! DEFINITION. How a command becomes an event of the part: the close of an event (R132, R143, R160), the events a change of state owes
and that come before the next command (log entry 4), and the frame of a command. -/

namespace Sys2Proof.Machine

/-! ### The close of an event -/

/-- What every event ends with: loads whose last table has taken effect complete (R37, R163), channels place the writes they can
(R143), the transit candidate is classified (R128), and the own requests of the event take their places (R132). -/
def State.finish (s : State) : State := ((s.completeLoads.writeAll).classifyCandidate).placeAll

/-- One event: what happens at it, and its close. -/
def State.event (f : State → State) (s : State) : State := (f s).finish

/-! ### Events owed -/

/-- The miss test of the last counter event (R105). -/
def State.missEvent (s : State) : State := State.missTestAll { s with cdu.missTest := false }

/-- The timeout test of the last counter event (R109); a GAP that finds every bridge DISABLED ends (R112). -/
def State.timeoutEvent (s : State) : State := (State.timeoutTestAll { s with cdu.timeoutTest := false }).reviewEngine

/-- The engine is in GAP. -/
def Engine.inGap : Engine → Bool
  | .gap => true
  | _ => false

/-- In GAP, a due head WAITING entry is sent to the lowest IDLE bridge (R113). -/
def State.dueEvent (s : State) : State :=
  if s.cdu.engine.inGap then
    match s.cutReady with
    | some (e, b) => s.startCut e b
    | none => s
  else s

/-- A CUT transfer is owed from GAP (R113). -/
def State.dueOwed (s : State) : Bool := s.cdu.engine.inGap && s.cutReady.isSome

/-- An event happens if it is owed. -/
def State.ifOwed (owed : State → Bool) (f : State → State) (s : State) : State := if owed s then s.event f else s

/-- An event happens as long as it is owed, at most `fuel` times. -/
def State.whileOwed (owed : State → Bool) (f : State → State) : Nat → State → State
  | 0, s => s
  | fuel + 1, s => if owed s then State.whileOwed owed f fuel (s.event f) else s

/-- The deadline expiry that was raised at once (R81). -/
def State.settleExpiry (s : State) : State := s.ifOwed State.expiryOwed State.expiry

/-- The trigger that is owed (R2). -/
def State.settleTrigger (s : State) : State := s.ifOwed State.triggerOwed State.trigger

/-- The tests that the last counter event owes (R105, R109). -/
def State.settleTests (s : State) : State :=
  (s.ifOwed (fun s => s.cdu.missTest) State.missEvent).ifOwed (fun s => s.cdu.timeoutTest) State.timeoutEvent

/-- The CUT transfer that is owed from GAP (R113). -/
def State.settleDue (s : State) : State := s.ifOwed State.dueOwed State.dueEvent

/-- A fully masked write is the transit candidate (R126). -/
def State.maskedOwed (s : State) : Bool := s.maskedCandidate.isSome

/-- Fully masked candidates are forwarded (R126); the transit queue holds 8 at most. -/
def State.settleMasked (s : State) : State := s.whileOwed State.maskedOwed State.forwardMasked transitCapacity

/-- A waiting own request finds a place (R132). -/
def State.placeOwed (s : State) : Bool := !s.tru.waiting.isEmpty && decide (s.tru.own.length < ownCapacity)

/-- Waiting own requests take their places (R132). -/
def State.settlePlaced (s : State) : State := s.whileOwed State.placeOwed State.placeWaiting ownCapacity

/-- Every event that is owed happens, in this order (log entry 4). A trigger, a test and a CUT transfer can compute D anew, so that an
expiry raised at once can follow each of them (R81). -/
def State.settle (s : State) : State :=
  (((((((s.settleExpiry).settleTrigger).settleExpiry).settleTests).settleExpiry).settleDue).settleExpiry).settleMasked.settlePlaced

/-- A raised deadline expiry is taken (R82, log entry 4). -/
def State.settleDeadline (s : State) : State := s.ifOwed State.expiryRaised State.expiry

/-- A shift timer expiry is raised (R152). -/
def State.shiftExpired (s : State) : Bool := s.sac.expired

/-- A raised shift timer expiry is taken (R153, log entry 4). -/
def State.settleShift (s : State) : State := s.ifOwed State.shiftExpired State.shiftExpiry

/-! ### The frame of a command -/

/-- The outputs of the last command are withdrawn: the LTRIG pulse and the upstream answers (log entry 5). -/
def State.clearOutputs (s : State) : State := { s with lcu.ltrig := false, tru.answers := [] }

/-- A command that is an event from outside or the beginning of a command: everything owed happens first. While PORST_N is low nothing
does (R138, R166). -/
def State.commandState (f : State → State) (s : State) : State :=
  if s.porstLow then s else s.clearOutputs.settle.event f

/-- A command that takes one raised event, if it is owed, after an expiry that was raised at once (R81). -/
def State.takenState (owed : State → Bool) (f : State → State) (s : State) : State :=
  if s.porstLow then s else s.clearOutputs.settleExpiry.ifOwed owed f

/-! ### The outside events -/

/-- A counted edge steps the counter, owes the tests of the counter event, from which on the miss_tol in force governs, and steps the
divider while inspection is LEARN or RUN (R1, R2, R105, R109, R122). -/
def State.countEdge (s : State) : State :=
  { s with
    lcu.counter := s.lcu.counter + 1, cdu.missTol := s.cdu.link.missTol, cdu.missTest := true, cdu.timeoutTest := true
    lcu.divider := if s.inspecting then s.lcu.divider - 1 else s.lcu.divider }

/-- An edge on ENC (R1): it acts if enc_edge counts it. -/
def State.encoderEdge (edge : Edge) (s : State) : State :=
  if s.fdu.detect.encEdge.counts edge then s.countEdge else s

/-- One REFCLK period on the link: every link_div periods a bit time runs in the gap in progress (R112 to R114), by the link_div in force,
also in a gap that began under another (DEDUCED, log entry 25). -/
def State.linkPeriod (s : State) : State :=
  if s.cdu.link.linkDiv ≤ s.cdu.bitPhase + 1 then
    { s with
      cdu.bitPhase := 0
      cdu.gapTime := if s.cdu.gapRunning then min s.cdu.gapLen (s.cdu.gapTime + 1) else s.cdu.gapTime }
  else { s with cdu.bitPhase := s.cdu.bitPhase + 1 }

/-- The gap in progress has run out and the engine is in GAP (R112). -/
def State.gapOver (s : State) : Bool := s.cdu.engine.inGap && decide (s.cdu.gapLen ≤ s.cdu.gapTime)

/-- The gap in progress runs out: in GAP the engine chooses what to do next; during a CUT transfer the gap's end is kept for the
boundary (R112, R113). -/
def State.gapEnds (s : State) : State :=
  if s.cdu.gapRunning then
    let s := { s with cdu.gapTime := s.cdu.gapLen }
    if s.cdu.engine.inGap then s.chooseNext else s
  else s

/-- One REFCLK period (R112, R152). -/
def State.refclk (s : State) : State :=
  let s := s.timerPeriod.linkPeriod
  if s.gapOver then s.gapEnds else s

/-- A REFCLK period of the part, after everything raised has been taken (log entries 4 and 6). -/
def State.idle (s : State) : State :=
  if s.porstLow then s else ((s.clearOutputs.settle.settleDeadline).settleShift).event State.refclk

/-! ### Returns from memory -/

/-- The oldest granted request leaves, if it is as `f` says, and its answer acts as `g` says. -/
def State.answered (f : InFlight → Option (State → State)) (s : State) : State :=
  match s.tru.flight with
  | [] => s
  | x :: rest =>
    match f x with
    | some g => g { s with tru.flight := rest }
    | none => s

/-- The bytes that memory returns for the oldest FORWARDED entry: those of its beats for a read, none for a write. -/
def State.answerLength (s : State) : Nat :=
  match s.tru.transit.find? fun e => decide (e.state = .forwarded) with
  | some e => if e.req.kind = .read then e.req.length * beatBytes else 0
  | none => 0

/-- Memory answers the oldest granted request, a transit request (R126). -/
def State.downstreamAnswer (data : List Byte) (s : State) : State :=
  s.answered fun x =>
    match x with
    | .transit _ => if data.length = s.answerLength then some (State.transitAnswered data) else none
    | .own _ => none

/-- What a returned own read does (R37, R142, R169). -/
def State.ownReadReturned (p : OwnPurpose) (data : List Byte) (s : State) : State :=
  match p with
  | .tableRead => s.tableReadReturn data
  | .referenceRead => s.referenceReturn data
  | .descriptor ch => s.descriptorReturn ch data
  | .result _ _ _ => s
  | .status => s
  | .snapshot => s
  | .record _ => s

/-- Memory answers the oldest granted request, an own read (R132). -/
def State.ownReadReturn (data : List Byte) (s : State) : State :=
  s.answered fun x =>
    match x with
    | .own r =>
      if r.kind = .read ∧ data.length = r.beats * beatBytes then some (State.ownReadReturned r.purpose data) else none
    | .transit _ => none

/-- What a completed own write tells its producer (R39, R144). -/
def State.ownWriteCompleted (p : OwnPurpose) (s : State) : State :=
  match p with
  | .snapshot => s.snapshotWritten
  | .record ch => s.recordWritten ch
  | .result _ _ _ => s
  | .status => s
  | .tableRead => s
  | .referenceRead => s
  | .descriptor _ => s

/-- Memory completes the oldest granted request, an own write (R133). -/
def State.ownWriteCompletion (s : State) : State :=
  s.answered fun x =>
    match x with
    | .own r => if r.kind = .write then some (State.ownWriteCompleted r.purpose) else none
    | .transit _ => none

/-- A request arrives upstream: PENDING at the tail, unless the queue holds 8 and the requester waits (R125). What is not well formed is no
request (log entry 7). -/
def State.upstreamArrives (r : Request) (s : State) : State :=
  if r.wellFormed ∧ s.tru.transit.length < transitCapacity then
    { s with tru.transit := s.tru.transit ++ [{ req := r, state := .pending, classes := none, answer := [] }] }
  else s

/-! ### The link -/

/-- The transfer on the link has begun: its START mark was not delayed, or has been sent (R114). -/
def State.transferBegun (s : State) (startSent : Bool) : Bool := startSent || !s.cdu.lckHeld

/-- A CUT transfer ends with the bridge's bytes, and the boundary follows (R112, R118). -/
def State.cutTransferEnd (code check : Byte) (s : State) : State :=
  match s.cdu.engine with
  | .cutXfer b piece tag _ sent =>
    if s.transferBegun sent then (s.cutEnds (cutEndOf code check) b piece tag).boundary else s
  | _ => s

/-- A POLL transfer ends with the bridge's bytes, and the boundary follows (R112, R119, R120). -/
def State.pollTransferEnd (status tag check : Byte) (s : State) : State :=
  match s.cdu.engine with
  | .pollXfer b sent => if s.transferBegun sent then ((s.pollEnds b status tag check).polled b).boundary else s
  | _ => s

/-- The engine is in a transfer, and whether its START mark has been sent. -/
def Engine.startSent : Engine → Option Bool
  | .pollXfer _ sent => some sent
  | .cutXfer _ _ _ _ sent => some sent
  | _ => none

/-- The transfer on the link is abandoned; one whose START mark was never sent counts as abandoned before the check byte (R114, R116).
With LCK still low the engine enters STUCK (R117). -/
def State.transferAbandon (point : AbandonPoint) (lck : Lck) (s : State) : State :=
  match s.cdu.engine.startSent with
  | none => s
  | some sent =>
    let s := s.abandon (if s.transferBegun sent then point else .beforeCheck)
    match lck with
    | .seenHigh => State.boundary { s with cdu.lckHeld := false }
    | .stillLow => s.enterStuck

/-- LCK is seen high in STUCK: a new round begins (R117). -/
def State.stuckExit (s : State) : State :=
  match s.cdu.engine with
  | .stuck => State.startRound { s with cdu.lckHeld := false }
  | _ => s

/-- A delayed START mark is sent (R114). -/
def Engine.sendStart : Engine → Engine
  | .pollXfer b _ => .pollXfer b true
  | .cutXfer b piece tag lane _ => .cutXfer b piece tag lane true
  | e => e

/-- Both lines are seen high for a delayed START mark (R114). -/
def State.linesSeenHigh (s : State) : State :=
  match s.cdu.engine.startSent with
  | some false => { s with cdu.engine := s.cdu.engine.sendStart, cdu.lckHeld := false }
  | _ => s

end Sys2Proof.Machine
end

