-- ==== Sys2Proof/Machine/Outcome.lean ====
section
/-! DEFINITION. The outcome of a command: a next state, for every command (no event stops the part). -/

namespace Sys2Proof.Machine

/-- An event from outside, or the beginning of a command: everything owed happens first (log entry 4). -/
def command (f : State → State) (s : State) : Host.Outcome State Fault Refusal := .next (s.commandState f)

/-- The taking of one raised event, if it is owed (log entries 4 and 7). -/
def taken (owed : State → Bool) (f : State → State) (s : State) : Host.Outcome State Fault Refusal := .next (s.takenState owed f)

end Sys2Proof.Machine
end

