-- ==== Sys2Proof/Machine/AnalysisEvents.lean ====
section
/-! DEFINITION. The end of an analysis. -/

namespace Sys2Proof.Machine

/-- ANALYSIS_END (R21). -/
def execAnalysisEnd (s : State) : Host.Outcome State Fault Refusal := command State.analysisEnds s

end Sys2Proof.Machine
end

