-- ==== Sys2Proof/Machine/LinkEvents.lean ====
section
/-! DEFINITION. The events of the cutter link. -/

namespace Sys2Proof.Machine

/-- CUT_TRANSFER_END (R118). -/
def execCutTransferEnd (code check : Byte) (s : State) : Host.Outcome State Fault Refusal := command (State.cutTransferEnd code check) s

/-- POLL_TRANSFER_END (R119). -/
def execPollTransferEnd (status tag check : Byte) (s : State) : Host.Outcome State Fault Refusal :=
  command (State.pollTransferEnd status tag check) s

/-- POLL_GAP_END (R112). -/
def execPollGapEnd (s : State) : Host.Outcome State Fault Refusal := command State.gapEnds s

/-- TRANSFER_ABANDON (R116). -/
def execTransferAbandon (point : AbandonPoint) (lck : Lck) (s : State) : Host.Outcome State Fault Refusal :=
  command (State.transferAbandon point lck) s

/-- STUCK_EXIT (R117). -/
def execStuckExit (s : State) : Host.Outcome State Fault Refusal := command State.stuckExit s

/-- LINK_LINES_SEEN_HIGH (R114). -/
def execLinkLinesSeenHigh (s : State) : Host.Outcome State Fault Refusal := command State.linesSeenHigh s

end Sys2Proof.Machine
end

