-- ==== Sys2Proof/Machine/ResetEvents.lean ====
section
/-! DEFINITION. The fall and the rise of PORST_N (R138, R166). -/

namespace Sys2Proof.Machine

/-- POWER_ON_RESET (R166): every block takes its power-on values with the straps as sampled. The queue of commands and the count of free
values are the model's own and stay. What was owed when it comes does not happen any more (DESIGN CHOICE, log entry 4). -/
def execPowerOnReset (ctlsel : BitVec 2) (s : State) : Host.Outcome State Fault Refusal :=
  .next { State.powerOn ctlsel with pending := s.pending, freeCount := s.freeCount }

/-- PORST_N_LOW (R138, R166): every request is discarded without an answer, and the part makes none until the rise. What was owed when it
comes, a trigger with its pulse on LTRIG among it, does not happen any more (DESIGN CHOICE, log entries 4 and 17). -/
def execPorstNLow (s : State) : Host.Outcome State Fault Refusal :=
  .next
    { s.clearOutputs with
      porstLow := true, tru.transit := [], tru.own := [], tru.waiting := [], tru.placing := [], tru.flight := [] }

end Sys2Proof.Machine
end

