-- ==== Sys2Proof/Machine/RibbonEvents.lean ====
section
/-! DEFINITION. The events of the ribbon: encoder edges, triggers, deadline expiries, entries due, missed and timed out. -/

namespace Sys2Proof.Machine

/-- ENCODER_EDGE (R1): a raised deadline expiry is taken before the counter moves (log entry 4), then the edge is counted. -/
def execEncoderEdge (edge : Edge) (s : State) : Host.Outcome State Fault Refusal :=
  if s.porstLow then .next s
  else .next ((s.clearOutputs.settle.settleDeadline).settle.event (State.encoderEdge edge))

/-- LINE_TRIGGER (R2). -/
def execLineTrigger (s : State) : Host.Outcome State Fault Refusal := taken State.triggerOwed State.trigger s

/-- DEADLINE_EXPIRY (R82). -/
def execDeadlineExpiry (s : State) : Host.Outcome State Fault Refusal :=
  command (fun s => if s.expiryRaised then s.expiry else s) s

/-- ENTRY_DUE (R113): the tests of the same counter event come first, and expiries that were raised at once (R81). -/
def execEntryDue (s : State) : Host.Outcome State Fault Refusal :=
  if s.porstLow then .next s else .next (s.clearOutputs.settleExpiry.settleTests.settleExpiry.settleDue)

/-- ENTRY_MISSED (R105). -/
def execEntryMissed (s : State) : Host.Outcome State Fault Refusal := taken (fun s => s.cdu.missTest) State.missEvent s

/-- CUT_TIMEOUT (R109). -/
def execCutTimeout (s : State) : Host.Outcome State Fault Refusal := taken (fun s => s.cdu.timeoutTest) State.timeoutEvent s

end Sys2Proof.Machine
end

