-- ==== Sys2Proof/Machine/ShiftEvents.lean ====
section
/-! DEFINITION. The events of the shift timer. -/

namespace Sys2Proof.Machine

/-- MILLISECOND_TICK (R152): a raised expiry is taken first (log entry 4). -/
def execMillisecondTick (s : State) : Host.Outcome State Fault Refusal :=
  if s.porstLow then .next s
  else .next ((s.clearOutputs.settle.settleShift).event fun s => if s.sac.running then s.tick else s)

/-- SHIFT_TIMER_EXPIRY (R153). -/
def execShiftTimerExpiry (s : State) : Host.Outcome State Fault Refusal :=
  command (fun s => if s.shiftExpired then s.shiftExpiry else s) s

end Sys2Proof.Machine
end

