-- ==== Sys2Proof/Machine/SlotCommands.lean ====
section
/-! DEFINITION. The beginning of each command of the command slots (R159, R161). -/

namespace Sys2Proof.Machine

/-- The head command has a code. -/
def hasCode (code : Byte) (c : Command) : Bool := c.code == code

/-- The operation byte of a CHANNEL command (11.2). -/
def channelOperation (c : Command) : Nat := c.arg1.toNat / 256 % 256

/-- A CHANNEL command that a row's event begins: one with the row's operation, or with an undefined one, which any of the four rows
takes (R161, log entry 16). -/
def hasChannelOp (op : Nat) (c : Command) : Bool :=
  c.code == codeChannel && (channelOperation c == op || channelOperation c == 0 || decide (4 < channelOperation c))

/-- The head command's code is undefined (R161). -/
def undefinedCode (c : Command) : Bool := !definedCodes.contains c.code

/-- The command at the head of the FIFO begins (R159). -/
def beginning (row : Command → Bool) (body : Fin 8 → Command → State → State) (s : State) : Host.Outcome State Fault Refusal :=
  command (State.begins row body) s

/-- START (R162). -/
def execStart (s : State) : Host.Outcome State Fault Refusal := beginning (hasCode codeStart) beginStart s

/-- STOP (R162). -/
def execStop (s : State) : Host.Outcome State Fault Refusal := beginning (hasCode codeStop) beginStop s

/-- RELEARN (R31). -/
def execRelearn (s : State) : Host.Outcome State Fault Refusal := beginning (hasCode codeRelearn) beginRelearn s

/-- LOAD_TABLES (R163). -/
def execLoadTables (s : State) : Host.Outcome State Fault Refusal := beginning (hasCode codeLoadTables) beginLoadTables s

/-- LOAD_REFERENCE (R37). -/
def execLoadReference (s : State) : Host.Outcome State Fault Refusal := beginning (hasCode codeLoadReference) beginLoadReference s

/-- SAVE_REFERENCE (R39). -/
def execSaveReference (s : State) : Host.Outcome State Fault Refusal := beginning (hasCode codeSaveReference) beginSaveReference s

/-- END_SHIFT (R156). -/
def execEndShift (s : State) : Host.Outcome State Fault Refusal := beginning (hasCode codeEndShift) beginEndShift s

/-- CHANNEL_START (R141). -/
def execChannelStart (s : State) : Host.Outcome State Fault Refusal :=
  beginning (hasChannelOp 1) (beginChannel 1 channelStartBody) s

/-- CHANNEL_PAUSE (R147). -/
def execChannelPause (s : State) : Host.Outcome State Fault Refusal :=
  beginning (hasChannelOp 2) (beginChannel 2 channelPauseBody) s

/-- CHANNEL_RESUME (R147). -/
def execChannelResume (s : State) : Host.Outcome State Fault Refusal :=
  beginning (hasChannelOp 3) (beginChannel 3 channelResumeBody) s

/-- CHANNEL_TERMINATE (R148). -/
def execChannelTerminate (s : State) : Host.Outcome State Fault Refusal :=
  beginning (hasChannelOp 4) (beginChannel 4 channelTerminateBody) s

/-- BRIDGE_ENABLE (R107). -/
def execBridgeEnable (s : State) : Host.Outcome State Fault Refusal := beginning (hasCode codeBridgeEnable) beginBridgeEnable s

/-- MANUAL_CUT (R96). -/
def execManualCut (s : State) : Host.Outcome State Fault Refusal := beginning (hasCode codeManualCut) beginManualCut s

/-- STATUS_REFRESH (R164). -/
def execStatusRefresh (s : State) : Host.Outcome State Fault Refusal := beginning (hasCode codeStatusRefresh) beginStatusRefresh s

/-- RESET_ENGINE (R167). -/
def execResetEngine (s : State) : Host.Outcome State Fault Refusal := beginning (hasCode codeResetEngine) beginResetEngine s

/-- BAD_COMMAND (R161). -/
def execBadCommand (s : State) : Host.Outcome State Fault Refusal := beginning undefinedCode beginBadCommand s

end Sys2Proof.Machine
end

