-- ==== Sys2Proof/Machine/TransitEvents.lean ====
section
/-! DEFINITION. The events of the memory path: requests, grants, answers, and observed control-window beats. -/

namespace Sys2Proof.Machine

/-- UPSTREAM_REQUEST (R125). -/
def execUpstreamRequest (r : Request) (s : State) : Host.Outcome State Fault Refusal := command (State.upstreamArrives r) s

/-- FULLY_MASKED_FORWARD (R126). -/
def execFullyMaskedForward (s : State) : Host.Outcome State Fault Refusal := taken State.maskedOwed State.forwardMasked s

/-- DOWNSTREAM_GRANT (R135). -/
def execDownstreamGrant (s : State) : Host.Outcome State Fault Refusal := command State.grant s

/-- CONTROL_WINDOW_WRITE (R158): a command-slot beat is observed. -/
def execControlWindowWrite (slot : Fin 8) (data : List Byte) (enables : BitVec 32) (s : State) : Host.Outcome State Fault Refusal :=
  command (State.slotBeat slot data enables) s

/-- ACKNOWLEDGE_WRITE (R165). -/
def execAcknowledgeWrite (word : Word) (enables : BitVec 4) (s : State) : Host.Outcome State Fault Refusal :=
  command (State.ackWritten word enables) s

/-- EVENT_ENABLE_WRITE (R165). -/
def execEventEnableWrite (word : Word) (enables : BitVec 4) (s : State) : Host.Outcome State Fault Refusal :=
  command (State.enableWritten word enables) s

/-- STOP_WORD_WRITE (R146). -/
def execStopWordWrite (ch : Fin 3) (word : Word) (enables : BitVec 4) (s : State) : Host.Outcome State Fault Refusal :=
  command (State.stopWritten ch word enables) s

/-- DOWNSTREAM_ANSWER (R126). -/
def execDownstreamAnswer (data : List Byte) (s : State) : Host.Outcome State Fault Refusal := command (State.downstreamAnswer data) s

/-- OWN_REQUEST_PLACED (R132). -/
def execOwnRequestPlaced (s : State) : Host.Outcome State Fault Refusal := taken State.placeOwed State.placeWaiting s

/-- OWN_READ_RETURN (R132). -/
def execOwnReadReturn (data : List Byte) (s : State) : Host.Outcome State Fault Refusal := command (State.ownReadReturn data) s

/-- OWN_WRITE_COMPLETION (R133). -/
def execOwnWriteCompletion (s : State) : Host.Outcome State Fault Refusal := command State.ownWriteCompletion s

end Sys2Proof.Machine
end

