-- ==== Sys2Proof/Machine/Dispatch.lean ====
section
/-! DEFINITION. One arm per command: its meaning. -/

namespace Sys2Proof.Machine

def exec (i : Instr) (s : State) : Host.Outcome State Fault Refusal :=
  match i with
  | .powerOnReset ctlsel => Sys2Proof.Machine.execPowerOnReset ctlsel s
  | .encoderEdge edge => Sys2Proof.Machine.execEncoderEdge edge s
  | .lineTrigger => Sys2Proof.Machine.execLineTrigger s
  | .deadlineExpiry => Sys2Proof.Machine.execDeadlineExpiry s
  | .entryDue => Sys2Proof.Machine.execEntryDue s
  | .entryMissed => Sys2Proof.Machine.execEntryMissed s
  | .cutTimeout => Sys2Proof.Machine.execCutTimeout s
  | .millisecondTick => Sys2Proof.Machine.execMillisecondTick s
  | .shiftTimerExpiry => Sys2Proof.Machine.execShiftTimerExpiry s
  | .upstreamRequest r => Sys2Proof.Machine.execUpstreamRequest r s
  | .fullyMaskedForward => Sys2Proof.Machine.execFullyMaskedForward s
  | .downstreamGrant => Sys2Proof.Machine.execDownstreamGrant s
  | .controlWindowWrite slot data enables => Sys2Proof.Machine.execControlWindowWrite slot data enables s
  | .acknowledgeWrite word enables => Sys2Proof.Machine.execAcknowledgeWrite word enables s
  | .eventEnableWrite word enables => Sys2Proof.Machine.execEventEnableWrite word enables s
  | .stopWordWrite ch word enables => Sys2Proof.Machine.execStopWordWrite ch word enables s
  | .downstreamAnswer data => Sys2Proof.Machine.execDownstreamAnswer data s
  | .ownRequestPlaced => Sys2Proof.Machine.execOwnRequestPlaced s
  | .ownReadReturn data => Sys2Proof.Machine.execOwnReadReturn data s
  | .ownWriteCompletion => Sys2Proof.Machine.execOwnWriteCompletion s
  | .analysisEnd => Sys2Proof.Machine.execAnalysisEnd s
  | .start => Sys2Proof.Machine.execStart s
  | .stop => Sys2Proof.Machine.execStop s
  | .relearn => Sys2Proof.Machine.execRelearn s
  | .loadTables => Sys2Proof.Machine.execLoadTables s
  | .loadReference => Sys2Proof.Machine.execLoadReference s
  | .saveReference => Sys2Proof.Machine.execSaveReference s
  | .endShift => Sys2Proof.Machine.execEndShift s
  | .channelStart => Sys2Proof.Machine.execChannelStart s
  | .channelPause => Sys2Proof.Machine.execChannelPause s
  | .channelResume => Sys2Proof.Machine.execChannelResume s
  | .channelTerminate => Sys2Proof.Machine.execChannelTerminate s
  | .bridgeEnable => Sys2Proof.Machine.execBridgeEnable s
  | .manualCut => Sys2Proof.Machine.execManualCut s
  | .statusRefresh => Sys2Proof.Machine.execStatusRefresh s
  | .resetEngine => Sys2Proof.Machine.execResetEngine s
  | .badCommand => Sys2Proof.Machine.execBadCommand s
  | .cutTransferEnd code check => Sys2Proof.Machine.execCutTransferEnd code check s
  | .pollTransferEnd status tag check => Sys2Proof.Machine.execPollTransferEnd status tag check s
  | .pollGapEnd => Sys2Proof.Machine.execPollGapEnd s
  | .transferAbandon point lck => Sys2Proof.Machine.execTransferAbandon point lck s
  | .stuckExit => Sys2Proof.Machine.execStuckExit s
  | .porstNLow => Sys2Proof.Machine.execPorstNLow s
  | .linkLinesSeenHigh => Sys2Proof.Machine.execLinkLinesSeenHigh s

end Sys2Proof.Machine
end

