-- ==== Sys2Proof/Safety.lean ====
section
/-! DEFINITION. What claims about the part are stated in: states in which nothing is owed and nothing is left to close, commands ready to
begin, and the invariants that every step keeps. -/

namespace Sys2Proof.Machine

/-! ### States at rest between commands -/

/-- PORST_N is high and no event is owed: `State.settle` finds nothing to do (log entry 4). -/
def State.settled (s : State) : Bool :=
  !s.porstLow && !s.expiryOwed && !s.triggerOwed && !s.cdu.missTest && !s.cdu.timeoutTest && !s.dueOwed && !s.maskedOwed && !s.placeOwed

/-- A channel can place a record write (R143). -/
def State.canWrite (s : State) (ch : Fin 3) : Bool :=
  let c := s.channel ch
  c.entry.isSome && !c.queue.isEmpty && decide (c.state = .active) && decide (c.activity = .none)
    && decide (c.pendingOp = .none) && decide (c.remaining ≠ 0)

/-- No load in its waiting phase has all it staged in effect (R37, R163). -/
def State.noLoadDone (s : State) : Bool :=
  (s.stagedLoad.isNone || !s.nothingStaged)
    && (s.fdu.stagedReference.isSome || (s.runningWith isReferenceStaged).isNone)

/-- The transit candidate, if there is one, is classified (R128). -/
def State.candidateClassified (s : State) : Bool :=
  match s.candidate with
  | some e => e.classes.isSome
  | none => true

/-- The last event has been closed: `State.finish` finds nothing to do. -/
def State.closed (s : State) : Bool :=
  s.noLoadDone && !s.canWrite 0 && !s.canWrite 1 && !s.canWrite 2 && s.candidateClassified && s.tru.placing.isEmpty

/-- Nothing is owed and nothing is left to close: every state between commands in which no derived event is outstanding. -/
def State.quiet (s : State) : Bool := s.settled && s.closed

/-- The command in slot `n` is next: the part is quiet, `n` is at the head of the FIFO and no command is running (R159). -/
def State.readyFor (s : State) (n : Fin 8) : Prop :=
  s.quiet = true ∧ s.csu.fifo.head? = some n ∧ s.csu.running = []

/-! ### Frames -/

/-- Of the transit unit only the own requests have changed, and the answers of the last command are withdrawn (log entry 5). -/
def Tru.onlyOwn (a b : Tru) : Prop := b = { a with own := b.own, waiting := b.waiting, answers := [] }

/-- The own write of a result (R160). -/
def State.resultRequest (s : State) (n : Fin 8) (st : Status) (v : Word) : OwnRequest :=
  { purpose := .result n v (resultWord (s.slot n).command st (s.slot n).overrun), kind := .write,
    addr := s.tru.controlBase + slotOffset n, beats := 1, data := [] }

/-- From `s` to `t` the command in slot `n`, at the head of the FIFO, has begun and completed with a status and a result value (R159, R160):
its number has left the FIFO, its slot is FREE with the overrun flag clear, every other slot and every running command is as before, the
result write is placed, or waits for its place, CMD_DONE is set and no cause is cleared. -/
structure State.CompletesAs (s t : State) (n : Fin 8) (st : Status) (v : Word) : Prop where
  fifo : t.csu.fifo = s.csu.fifo.tail
  slot : t.slot n = { s.slot n with state := .free, overrun := false }
  others : ∀ k, k ≠ n → t.slot k = s.slot k
  running : t.csu.running = s.csu.running
  causes : (s.csu.causes ||| 1#32) &&& ~~~t.csu.causes = 0#32
  result : s.resultRequest n st v ∈ t.tru.own ++ t.tru.waiting

/-- From `s` to `t` the command in slot `n`, at the head of the FIFO, has begun and runs on in a phase (R159). -/
structure State.RunsIn (s t : State) (n : Fin 8) (p : Phase) : Prop where
  fifo : t.csu.fifo = s.csu.fifo.tail
  slot : t.slot n = { s.slot n with state := .running }
  others : ∀ k, k ≠ n → t.slot k = s.slot k
  running : t.csu.running = s.csu.running ++ [{ slot := n, phase := p }]

/-- From `s` to `t` the one running command, in slot `n`, has completed with a status and a result value (R160): its slot is FREE with the
overrun flag clear, every other slot and the FIFO are as before, the result write is placed, or waits for its place, and CMD_DONE is set. -/
structure State.EndsAs (s t : State) (n : Fin 8) (st : Status) (v : Word) : Prop where
  fifo : t.csu.fifo = s.csu.fifo
  slot : t.slot n = { s.slot n with state := .free, overrun := false }
  others : ∀ k, k ≠ n → t.slot k = s.slot k
  running : t.csu.running = []
  done : t.csu.causes.getLsbD 0 = true
  result : s.resultRequest n st v ∈ t.tru.own ++ t.tru.waiting

/-! ### Ranges of the gap list -/

/-- Seen from a position `o` on, no range is empty, every one ends within half the ribbon coordinate, and each ends before the next begins
(R16). -/
structure GapsApart (o : Pos) (l : List Gap) : Prop where
  filled : ∀ g ∈ l, g.length ≠ 0
  near : ∀ g ∈ l, dist o g.start + g.length < 2 ^ 31
  apart : l.Pairwise fun g h => dist o g.start + g.length < dist o h.start

/-- Seen from `o`, some range of the list covers the count `k`. -/
def gapsCover (o : Pos) (l : List Gap) (k : Nat) : Prop := ∃ g ∈ l, dist o g.start ≤ k ∧ k < dist o g.start + g.length

/-! ### Candidates of a decision -/

/-- The end S + length of the candidate of product `i` (R85). -/
def State.endOf (s : State) (start : Pos) (i : Fin 8) : Pos := start + BitVec.ofNat 32 s.ppl.product.products[i].length

/-- Product `i` is enabled and its candidate is feasible (R80, R85). -/
def State.reachable (s : State) (start : Pos) (i : Fin 8) : Prop :=
  s.ppl.product.products[i].enabled = true ∧ s.feasible (s.endOf start i) = true

/-- Product `i` is enabled, and its candidate feasible and not straddled (R84, R85, R88). -/
def State.usable (s : State) (start : Pos) (i : Fin 8) : Prop :=
  s.reachable start i ∧ s.straddled (s.endOf start i) = false

/-- The grade of the candidate of product `i`, graded with or without open blobs, is at least the product's floor (R85). -/
def State.meetsFloor (s : State) (withBlobs : Bool) (start : Pos) (i : Fin 8) : Prop :=
  (s.grading withBlobs start (s.endOf start i)).grade.code ≤ s.ppl.product.products[i].floor.code

/-- `i` is the first product in table order of which `p` holds. -/
def firstProduct (p : Fin 8 → Prop) (i : Fin 8) : Prop := p i ∧ ∀ j, j < i → ¬p j

/-! ### Bytes that upstream writes may not reach -/

/-- The byte lies in the control window. -/
def State.controlByte (s : State) (a : Nat) : Prop := s.tru.controlBase ≤ a ∧ a < s.tru.controlBase + 4096

/-- A part-owned byte: the status block, or the last 4 bytes of a command slot (R127). -/
def State.partOwned (s : State) (a : Nat) : Prop :=
  s.controlByte a ∧ (a - s.tru.controlBase < 0x100 ∨ (a - s.tru.controlBase < 0x200 ∧ 28 ≤ (a - s.tru.controlBase) % 32))

/-- A byte of a protect window that is no byte of the control window or the image window (R128). -/
def State.protectedByte (s : State) (a : Nat) : Prop :=
  ¬s.controlByte a ∧ s.tru.params.image.contains a = false ∧ ∃ k : Fin 6, s.tru.params.protect[k].contains a = true

/-- A window begins and ends at beat addresses, as every window that R136 accepts does. -/
def Window.beatAligned (w : Window) : Prop := w.base % 32 = 0 ∧ w.size % 32 = 0

/-! ### Invariants -/

/-- Every collection keeps the capacity the spec gives it (R3, R11, R16, 3.1, R58, R103, R125, R132, R133, R139). -/
structure State.Capacities (s : State) : Prop where
  stamps : s.lcu.fifo.length ≤ 16
  lines : s.lcu.lineQueue.length ≤ 2
  gaps : s.lcu.gaps.length ≤ 32
  blobs : s.fdu.blobs.length ≤ 64
  store : s.fdu.store.length ≤ 512
  cuts : s.cdu.queue.length ≤ 16
  transit : s.tru.transit.length ≤ 8
  own : s.tru.own.length ≤ 32
  outstanding : s.tru.outstanding.length ≤ 16
  records : ∀ ch : Fin 3, (s.channel ch).queue.length ≤ queueDepth ch

/-- The two arrays of 8192 entries, in force, staged and read, stand in canonical form. -/
structure State.TablesCanonical (s : State) : Prop where
  columns : Cells.wf maskedGain s.fdu.columns = true
  reference : Cells.wf powerOnBackground s.fdu.reference = true
  stagedColumns : ∀ t, s.fdu.stagedColumns = some t → Cells.wf maskedGain t = true
  stagedReference : ∀ t, s.fdu.stagedReference = some t → Cells.wf powerOnBackground t = true
  read : ∀ r ∈ s.csu.running, ∀ i es bs good refused, r.phase = .tables i es bs good refused →
    ∀ t, TableBody.column t ∈ good → Cells.wf maskedGain t = true

/-- The slots follow the command FIFO and the running commands (R158, R159): a number stands in the FIFO once, and its slot is QUEUED; the
slot of a running command is RUNNING. -/
structure State.SlotsFollow (s : State) : Prop where
  once : s.csu.fifo.Nodup
  queued : ∀ n ∈ s.csu.fifo, (s.slot n).state = .queued
  running : ∀ r ∈ s.csu.running, (s.slot r.slot).state = .running

/-- The balance of a channel: produced less written, dropped and queued (R139, R140). -/
def Channel.balance (c : Channel) : Word := c.produced - c.written - c.dropped - BitVec.ofNat 32 c.queue.length

/-- Every own request that is placed, waits for a place, or is granted and not yet answered (R132, R133). -/
def Tru.ownRequests (t : Tru) : List OwnRequest :=
  t.own ++ t.waiting ++ t.placing
    ++ t.flight.filterMap fun x =>
      match x with
      | .own r => some r
      | .transit _ => none

/-- The own requests of a purpose. -/
def Tru.requestsFor (t : Tru) (p : OwnPurpose) : List OwnRequest := t.ownRequests.filter fun r => decide (r.purpose = p)

/-- Each channel's records balance (R140), and its activity tells its one request (R142, R143): a FETCHING channel has one descriptor read,
a WRITING one the write of its head record, any other none, and only an ACTIVE channel is FETCHING or WRITING. While PORST_N is low the
requests are gone and the channels wait for the rise. -/
structure State.ChannelsBalance (s : State) : Prop where
  balance : ∀ ch, (s.channel ch).balance = 0
  head : ∀ ch, (s.channel ch).activity = .writing → (s.channel ch).queue ≠ []
  active : ∀ ch, (s.channel ch).activity ≠ .none → (s.channel ch).state = .active
  fetches : s.porstLow = false →
    ∀ ch, (s.tru.requestsFor (.descriptor ch)).length = if (s.channel ch).activity = .fetching then 1 else 0
  writes : s.porstLow = false →
    ∀ ch, (s.tru.requestsFor (.record ch)).length = if (s.channel ch).activity = .writing then 1 else 0
  fetchKind : ∀ ch, ∀ r ∈ s.tru.requestsFor (.descriptor ch), r.kind = .read
  writeKind : ∀ ch, ∀ r ∈ s.tru.requestsFor (.record ch), r.kind = .write

end Sys2Proof.Machine
end

