-- ==== Sys2Proof/Certificates/Slice0/Obligations.lean ====
section
/-! DEFINITION. The statements for the provers, chapter by chapter. OBLIGATIONS.json lists them. -/

open Sys2Proof Sys2Proof.Machine

/-! ### The machine as a whole -/

/-- A step takes the command at the front of the queue and answers its meaning on the state with the queue's rest; with an empty queue it
is one REFCLK period (log entries 1 and 6). -/
def Obligations.StepRunsFrontCommand : Prop :=
  (∀ (c : Instr) (s : State) (rest : List Instr), s.pending = c :: rest → step s = exec c { s with pending := rest })
    ∧ ∀ s : State, s.pending = [] → step s = .next s.idle

/-- The four invariants hold after reset, at every strap value. -/
def Obligations.InvariantsHoldAtReset : Prop :=
  ∀ ctlsel : BitVec 2,
    (State.powerOn ctlsel).Capacities ∧ (State.powerOn ctlsel).TablesCanonical ∧ (State.powerOn ctlsel).SlotsFollow
      ∧ (State.powerOn ctlsel).ChannelsBalance

/-- Every step keeps every collection within the capacity the spec gives it (R3, R11, R16, R18, 3.1, R58, R90, R125, R132, R133, R139). -/
def Obligations.CapacitiesKept : Prop :=
  ∀ s t : State, s.Capacities → step s = .next t → t.Capacities

/-- Every step keeps the column and reference tables, in force, staged and read, in canonical form. -/
def Obligations.TablesCanonicalKept : Prop :=
  ∀ s t : State, s.TablesCanonical → step s = .next t → t.TablesCanonical

/-- Every step keeps the law of the command slots: a slot number stands in the FIFO once and its slot is QUEUED, and the slot of a running
command is RUNNING (R158, R159). -/
def Obligations.SlotsFollowKept : Prop :=
  ∀ s t : State, s.SlotsFollow → step s = .next t → t.SlotsFollow

/-- Every step keeps the records of each channel in balance, produced = written + queued + dropped modulo 2^32, and its activity in step with
its one own request (R140, R142, R143). -/
def Obligations.ChannelsBalanceKept : Prop :=
  ∀ s t : State, s.ChannelsBalance → step s = .next t → t.ChannelsBalance

/-- Upstream requests leave in arrival order: every command but an arrival and the two of PORST_N takes some number of requests from the
head of the transit queue, and answers exactly those, oldest first, each with its source tag (R125, R126). -/
def Obligations.RequestsAnsweredInOrder : Prop :=
  ∀ (c : Instr) (s t : State), s.porstLow = false → (∀ r, c ≠ .upstreamRequest r) → (∀ x, c ≠ .powerOnReset x) → c ≠ .porstNLow →
    exec c s = .next t →
    ∃ k, t.tru.transit.map TransitEntry.req = (s.tru.transit.map TransitEntry.req).drop k
      ∧ t.tru.answers.map Answer.tag = ((s.tru.transit.map TransitEntry.req).take k).map Request.tag

/-- The ribbon counter counts the edges that enc_edge selects, modulo 2^32, in every inspection state; power-on reset makes it 0, and no
other command changes it (R1). That edges do not count while PORST_N is low is the model's choice (log entry 17). -/
def Obligations.CounterCountsEdges : Prop :=
  (∀ (e : Edge) (s t : State), s.porstLow = false → exec (.encoderEdge e) s = .next t →
      t.lcu.counter = if s.fdu.detect.encEdge.counts e then s.lcu.counter + 1 else s.lcu.counter)
    ∧ (∀ (x : BitVec 2) (s t : State), exec (.powerOnReset x) s = .next t → t.lcu.counter = 0)
    ∧ ∀ (c : Instr) (s t : State), (∀ e, c ≠ .encoderEdge e) → (∀ x, c ≠ .powerOnReset x) → exec c s = .next t →
        t.lcu.counter = s.lcu.counter

/-- The control window stays where the straps put it: only power-on reset moves it (R128, R137, R138). -/
def Obligations.ControlWindowStays : Prop :=
  ∀ (c : Instr) (s t : State), (∀ x, c ≠ .powerOnReset x) → exec c s = .next t →
    t.tru.controlBase = s.tru.controlBase ∧ t.ctlsel = s.ctlsel

/-! ### Reset -/

/-- The rise of PORST_N samples the straps and places the control window; every block takes its power-on values (R166 and the tables at the
heads of the chapters, with the power-on values of the tables in force); the queue of commands stays (log entry 1). -/
def Obligations.PowerOnReset : Prop :=
  ∀ (x : BitVec 2) (s : State), ∃ t, exec (.powerOnReset x) s = .next t ∧ t.pending = s.pending ∧ t.porstLow = false
    ∧ t.ctlsel = x
    ∧ (x = 0 → t.tru.controlBase = 0x0000100000) ∧ (x = 1 → t.tru.controlBase = 0x0040000000)
    ∧ (x = 2 → t.tru.controlBase = 0x0800000000) ∧ (x = 3 → t.tru.controlBase = 0x0FFFF00000)
    ∧ t.csu.inspection = .off ∧ t.csu.causes = 0 ∧ t.csu.fifo = [] ∧ t.csu.running = [] ∧ t.csu.statusWaiting = false
    ∧ t.csu.refreshCount = 0
    ∧ (∀ n, (t.slot n).state = .free ∧ (t.slot n).overrun = false ∧ (t.slot n).copy = Vector.replicate 6 0)
    ∧ t.lcu =
        { counter := 0, divider := 4, fifo := [], lastStamp := 0, assembly := none, lineQueue := [], gaps := [], resumeArmed := false
          ltrig := false }
    ∧ (∀ k, gainOf t.fdu.columns k = 63) ∧ (∀ k, backgroundOf t.fdu.reference k = 0x8000)
    ∧ t.fdu.detect =
        { linePx := 8192, spanFirst := 0, spanLast := 8191, ldiv := 4, encEdge := .rising, polarityEnable := .both, thDark := 40
          tlDark := 20, thBright := 40, tlBright := 20, minRun := 2, joinCols := 2, gapLines := 1, trackShift := 6, learnShift := 2
          learnLines := 32, maxBlobCounts := 65536, colPitchUm := 400, countUm := 100 }
    ∧ t.fdu.classes.rules = []
    ∧ (∀ k : Fin 16, t.fdu.classes.classes[k] = { b1 := 0, b2 := 0, b3 := 0, points := Vector.replicate 4 0 })
    ∧ t.fdu.stagedDetect = none ∧ t.fdu.stagedColumns = none ∧ t.fdu.stagedClasses = none ∧ t.fdu.stagedReference = none
    ∧ t.fdu.mode = .run ∧ t.fdu.learnCount = 0 ∧ t.fdu.analysis = none ∧ t.fdu.scan = 0 ∧ t.fdu.snapshot = none
    ∧ t.fdu.blobs = [] ∧ t.fdu.store = [] ∧ t.fdu.lastBlobId = 0
    ∧ t.ppl.piece = none ∧ t.ppl.nextPiece = 1 ∧ t.ppl.lmin = 30000 ∧ t.ppl.lmax = 30000 ∧ t.ppl.provisional = none
    ∧ t.ppl.scanSeen = false ∧ t.ppl.stagedGrade = none ∧ t.ppl.stagedProduct = none
    ∧ t.ppl.grade =
        { trimCols := 0, edgeCols := 0, weightCenter := 8, weightEdge := 8, weightTrim := 0, aMax := 0, bMax := 20, cMax := 80
          gapCap := .cull, cutoutPoints := 100, laneA := 0, laneB := 1, laneC := 2, laneCull := 3, laneCutout := 3 }
    ∧ t.ppl.product.minStrip = 2000 ∧ t.ppl.product.cutClear = 50 ∧ t.ppl.product.settle = 2000
    ∧ (∀ i : Fin 8, t.ppl.product.products[i] = { length := 30000, floor := .c, enabled := decide (i = 0) })
    ∧ t.cdu.queue = [] ∧ t.cdu.mask = 0 ∧ t.cdu.newMask = none ∧ t.cdu.tag = 0 ∧ t.cdu.engine = .idle ∧ t.cdu.loopPos = 0
    ∧ t.cdu.gapTime = 0 ∧ t.cdu.gapRunning = false ∧ t.cdu.stagedLink = none ∧ t.cdu.missTol = 400
    ∧ t.cdu.link =
        { mask := 0, stationOffset := 180000, lead := 2500, issueMargin := 1500, missTol := 400, cutTimeout := 40000, linkDiv := 250
          stretchLimit := 64, pollGap := 1000 }
    ∧ (∀ b, (t.bridge b).state = .disabled ∧ (t.bridge b).misses = 0 ∧ (t.bridge b).lastStatus.toNat / 16 = 1
        ∧ (t.bridge b).lastTag = 0 ∧ (t.bridge b).faultCode = 0xFF)
    ∧ t.tru.transit = [] ∧ t.tru.own = [] ∧ t.tru.waiting = [] ∧ t.tru.flight = [] ∧ t.tru.share = 0 ∧ t.tru.hits = 0
    ∧ t.tru.ackShadow = 0 ∧ t.tru.enableShadow = 0 ∧ (∀ ch, t.stopWord ch = 0)
    ∧ t.tru.params.image.size = 0 ∧ (∀ k : Fin 6, t.tru.params.protect[k].size = 0) ∧ t.tru.params.ownShare = 4
    ∧ t.tru.params.refreshLines = 0 ∧ t.tru.params = TransitTable.powerOn
    ∧ (∀ ch, t.channel ch =
        { queue := [], nextSeq := 1, produced := 0, written := 0, dropped := 0, state := .stopped, table := 0, autoRestart := false
          restart := none, index := 0, entry := none, remaining := 0, activity := .none, pendingOp := .none })
    ∧ (∀ ch, t.stopIndex ch = 0 ∧ t.atStop ch = true)
    ∧ t.sac.number = 1 ∧ t.sac.startPos = 0 ∧ t.sac.openReason = .reset ∧ t.sac.running = false ∧ t.sac.prescaleCount = 0
    ∧ t.sac.tickCount = 0 ∧ t.sac.stepCount = 0 ∧ t.sac.expired = false ∧ t.sac.counters = ShiftCounters.zero
    ∧ t.sac.params = { prescale := 50000, coarse := false, length := 28800000, repeats := true, enabled := false }

/-- At the fall of PORST_N every request is discarded without an answer and IRQ is low, and until the rise no other command changes
anything (R138, R166; that the discarding happens at the fall is the model's choice, log entry 17). -/
def Obligations.PorstLowSilencesThePart : Prop :=
  (∀ s : State, ∃ t, exec .porstNLow s = .next t ∧ t.porstLow = true ∧ t.irq = false ∧ t.tru.transit = [] ∧ t.tru.own = []
      ∧ t.tru.waiting = [] ∧ t.tru.flight = [] ∧ t.tru.answers = [] ∧ t.lcu.ltrig = false)
    ∧ ∀ (c : Instr) (s : State), s.porstLow = true → (∀ x, c ≠ .powerOnReset x) → c ≠ .porstNLow → exec c s = .next s

/-! ### The ribbon and line capture -/

/-- ENCODER_EDGE on a quiet state with no expiry raised: a counted edge steps the counter and, while inspection is LEARN or RUN, the
divider, owes the tests of the counter event, and from then on the miss_tol in force governs; nothing else changes (R1, R2, R105, R109, R122;
log entry 4). -/
def Obligations.EncoderEdgeStepsTheDivider : Prop :=
  ∀ (e : Edge) (s : State), s.quiet = true → s.expiryRaised = false →
    exec (.encoderEdge e) s = .next
      (if s.fdu.detect.encEdge.counts e then
        { s with
          lcu.ltrig := false, tru.answers := []
          lcu.counter := s.lcu.counter + 1
          lcu.divider :=
            if s.csu.inspection = .learn ∨ s.csu.inspection = .run then s.lcu.divider - 1 else s.lcu.divider
          cdu.missTol := s.cdu.link.missTol, cdu.missTest := true, cdu.timeoutTest := true }
      else { s with lcu.ltrig := false, tru.answers := [] })

/-- LINE_TRIGGER, owed and with the last event closed, completes: LTRIG pulses, the divider is reloaded, and the counter is pushed as a
stamp; on a full FIFO the oldest stamp is lost as a trigger overrun; the resume range is disarmed, and added up to the stamp if a piece is
open; an IDLE planner opens its piece at the stamp, and an expiry is raised at once if the counter has already reached its deadline (R2, R3,
R4, R13, R17, R78, R81). -/
def Obligations.LineTriggerPushesAStamp : Prop :=
  ∀ s : State, s.porstLow = false → s.closed = true → s.expiryOwed = false → s.triggerOwed = true →
    let lost : List Gap :=
      (if s.lcu.fifo.length < 16 then [] else s.lcu.fifo.take 1).map fun p => { start := p, length := s.fdu.detect.ldiv }
    let resume : Option Pos :=
      if s.lcu.resumeArmed then s.ppl.piece.map fun p => if before p.start s.fdu.scan then s.fdu.scan else p.start else none
    ∃ t, exec .lineTrigger s = .next t ∧ t.lcu.ltrig = true ∧ t.lcu.divider = s.fdu.detect.ldiv
      ∧ t.lcu.fifo = (if s.lcu.fifo.length < 16 then s.lcu.fifo else s.lcu.fifo.tail) ++ [s.lcu.counter]
      ∧ (16 ≤ s.lcu.fifo.length → s.fdu.detect.ldiv ≠ 0 →
          t.sac.counters.lost[0] = satAdd max32 s.sac.counters.lost[0] 1
            ∧ t.sac.counters.lostLength[0] = satAdd max32 s.sac.counters.lostLength[0] s.fdu.detect.ldiv
            ∧ t.csu.causes.getLsbD 16 = true)
      ∧ (s.lcu.fifo.length < 16 → t.sac = s.sac ∧ t.csu = s.csu)
      ∧ t.lcu.resumeArmed = false
      ∧ (∀ r, resume = some r → before r s.lcu.counter = true →
          t.lcu.gaps = gapAdd (lost.foldl gapAdd s.lcu.gaps) { start := r, length := (s.lcu.counter - r).toNat })
      ∧ ((∀ r, resume = some r → before r s.lcu.counter = false) → t.lcu.gaps = lost.foldl gapAdd s.lcu.gaps)
      ∧ (s.ppl.piece = none → t.ppl.piece = some { start := s.lcu.counter, deadline := s.deadlineOf s.lcu.counter }
          ∧ t.expiryOwed = reaches (s.deadlineOf s.lcu.counter) s.lcu.counter)
      ∧ (∀ p, s.ppl.piece = some p → t.ppl.piece = some p ∧ t.expiryOwed = false)
      ∧ t.lcu.counter = s.lcu.counter ∧ t.lcu.lastStamp = s.lcu.lastStamp ∧ t.lcu.lineQueue = s.lcu.lineQueue
      ∧ t.lcu.assembly = s.lcu.assembly
      ∧ t.fdu = s.fdu ∧ t.cdu = s.cdu ∧ t.rou = s.rou ∧ t.csu.inspection = s.csu.inspection ∧ t.csu.slots = s.csu.slots
      ∧ t.csu.fifo = s.csu.fifo ∧ t.csu.running = s.csu.running
      ∧ t.tru.flight = s.tru.flight ∧ t.tru.transit = s.tru.transit

/-- A range of length 0 is not added, and one that neither overlaps nor touches an entry of a list with a free place is inserted beside them.
In any list of separate ranges in start order, seen from a position `o` on: an added range is inserted in start order and merged with what
it overlaps or touches, and covers nothing more; a 33rd range widens the last entry, taking in what lies between; a commit at E leaves what
lies from E on; and the list stays separate, in start order and within 32 entries (R16, R18, R19). -/
def Obligations.GapInsertedBesideTheOthers : Prop :=
  (∀ (gaps : List Gap) (g : Gap), g.length = 0 → gapAdd gaps g = gaps)
  ∧ (∀ (gaps : List Gap) (g : Gap), g.length ≠ 0 → gaps.length < 32 → (∀ h ∈ gaps, g.touches h = false) →
      (gapAdd gaps g).Perm (g :: gaps))
  ∧ (∀ (o : Pos) (g h : Gap), GapsApart o [g] → GapsApart o [h] →
      (g.touches h = true ↔ dist o g.start ≤ dist o h.start + h.length ∧ dist o h.start ≤ dist o g.start + g.length))
  ∧ (∀ (o : Pos) (gaps : List Gap) (g : Gap), GapsApart o gaps → GapsApart o [g] → gaps.length ≤ 32 →
      GapsApart o (gapAdd gaps g) ∧ (gapAdd gaps g).length ≤ 32
      ∧ (gaps.length < 32 ∨ (∃ h ∈ gaps, g.touches h = true) →
          ∀ k, gapsCover o (gapAdd gaps g) k ↔ gapsCover o gaps k ∨ gapsCover o [g] k)
      ∧ ∀ l, gaps.length = 32 → (∀ h ∈ gaps, g.touches h = false) → gaps.getLast? = some l →
          ∀ k, gapsCover o (gapAdd gaps g) k ↔
            gapsCover o gaps k ∨ (min (dist o l.start) (dist o g.start) ≤ k
              ∧ k < max (dist o l.start + l.length) (dist o g.start + g.length)))
  ∧ ∀ (o e : Pos) (gaps : List Gap), GapsApart o gaps → dist o e < 2 ^ 31 →
      GapsApart o (gapClip e gaps) ∧ ∀ k, gapsCover o (gapClip e gaps) k ↔ gapsCover o gaps k ∧ dist o e ≤ k

/-! ### Flaw detection -/

/-- The deviation is 256·p − bg, exact, and lies in −65535 to 65280 (R24). The contrast is d × (64 + g) / 16384 rounded to the nearest
integer, halves away from zero, then clamped to −255…255 (R25): whatever integer is nearest, and on a tie the one farther from zero, is
the unclamped value. -/
def Obligations.ContrastFollowsTheArithmetic : Prop :=
  (∀ c : Column, c.deviation = 256 * (c.pixel.toNat : Int) - (c.background.toNat : Int)
    ∧ -65535 ≤ c.deviation ∧ c.deviation ≤ 65280
    ∧ c.contrast = contrastOf c.gain c.deviation ∧ -255 ≤ c.contrast ∧ c.contrast ≤ 255)
  ∧ ∀ (g : Nat) (d r : Int),
    2 * (16384 * r - d * (64 + (g : Int))).natAbs ≤ 16384 →
    (2 * (16384 * r - d * (64 + (g : Int))).natAbs = 16384 → (d * (64 + (g : Int))).natAbs ≤ 16384 * r.natAbs) →
    contrastOf g d = max (-255) (min 255 r)

/-- The candidates of R26: at or beyond the upper threshold a strong candidate, between the two a weak one, of an enabled polarity; nothing
inside the lower thresholds. -/
def Obligations.CandidatesByThreshold : Prop :=
  ∀ (t : Detect) (s : Int), 1 ≤ t.tlDark → t.tlDark ≤ t.thDark → 1 ≤ t.tlBright → t.tlBright ≤ t.thBright →
    (candidateOf t s = some (.dark, true) ↔ t.polarityEnable ≠ .bright ∧ s ≤ -(t.thDark : Int))
    ∧ (candidateOf t s = some (.dark, false) ↔ t.polarityEnable ≠ .bright ∧ -(t.thDark : Int) < s ∧ s ≤ -(t.tlDark : Int))
    ∧ (candidateOf t s = some (.bright, true) ↔ t.polarityEnable ≠ .dark ∧ (t.thBright : Int) ≤ s)
    ∧ (candidateOf t s = some (.bright, false) ↔ t.polarityEnable ≠ .dark ∧ (t.tlBright : Int) ≤ s ∧ s < (t.thBright : Int))
    ∧ (candidateOf t s = none ↔
        (s ≤ -(t.tlDark : Int) → t.polarityEnable = .bright) ∧ ((t.tlBright : Int) ≤ s → t.polarityEnable = .dark))
    ∧ ∀ c : Column, (c.takesPart t = true → c.candidate t = candidateOf t c.contrast) ∧ (c.takesPart t = false → c.candidate t = none)

/-- The accepted runs of adjacent columns are ascending and share no column; each is at least min_run wide, holds a strong candidate, is all
candidates of its polarity and is maximal; and every such stretch of columns is among them (R27, R28). -/
def Obligations.AcceptedRunsAreMaximal : Prop :=
  ∀ (t : Detect) (k : Nat) (cols : List Column), cols.map Column.index = List.range' k cols.length →
    (acceptedRuns t cols).Pairwise (fun a b => a.last < b.first)
    ∧ (∀ r ∈ acceptedRuns t cols, r.first ≤ r.last ∧ t.minRun ≤ r.last - r.first + 1
        ∧ (∀ c ∈ cols, r.first ≤ c.index → c.index ≤ r.last → ∃ b, c.candidate t = some (r.polarity, b))
        ∧ (∃ c ∈ cols, r.first ≤ c.index ∧ c.index ≤ r.last ∧ c.candidate t = some (r.polarity, true))
        ∧ (∀ c ∈ cols, c.index + 1 = r.first ∨ c.index = r.last + 1 → ∀ b, c.candidate t ≠ some (r.polarity, b)))
    ∧ ∀ (a b : Nat) (p : Polarity), k ≤ a → a ≤ b → b < k + cols.length → t.minRun ≤ b - a + 1 →
        (∀ c ∈ cols, a ≤ c.index → c.index ≤ b → ∃ x, c.candidate t = some (p, x)) →
        (∃ c ∈ cols, a ≤ c.index ∧ c.index ≤ b ∧ c.candidate t = some (p, true)) →
        (∀ c ∈ cols, c.index + 1 = a ∨ c.index = b + 1 → ∀ x, c.candidate t ≠ some (p, x)) →
        ∃ r ∈ acceptedRuns t cols, r.first = a ∧ r.last = b ∧ r.polarity = p

/-- At the end of a RUN line a column that takes part and lies in no accepted run takes bg + floor(d / 2^track_shift), which lies between
the old background and 256·p; one inside an accepted run, or that takes no part, keeps its background (R29). At the end of a LEARN line
every column that takes part takes bg + floor(d / 2^learn_shift), exactly 256·p with learn_shift 0, whether or not it is a candidate;
others keep theirs; and no runs are formed (R30). -/
def Obligations.LineTracksBackground : Prop :=
  (∀ (t : Detect) (runs : List Run) (c : Column),
      (c.takesPart t = true → (∀ r ∈ runs, ¬(r.first ≤ c.index ∧ c.index ≤ r.last)) →
        ((c.after t .run runs).toNat : Int) = (c.background.toNat : Int) + c.deviation / ((2 ^ t.trackShift : Nat) : Int)
        ∧ min c.background.toNat (256 * c.pixel.toNat) ≤ (c.after t .run runs).toNat
        ∧ (c.after t .run runs).toNat ≤ max c.background.toNat (256 * c.pixel.toNat))
      ∧ ((c.takesPart t = false ∨ ∃ r ∈ runs, r.first ≤ c.index ∧ c.index ≤ r.last) → c.after t .run runs = c.background))
  ∧ ∀ (t : Detect) (cols : List Column) (c : Column),
      lineRuns t .learn cols = []
      ∧ (c.takesPart t = true →
        ((c.after t .learn (lineRuns t .learn cols)).toNat : Int)
            = (c.background.toNat : Int) + c.deviation / ((2 ^ t.learnShift : Nat) : Int)
        ∧ min c.background.toNat (256 * c.pixel.toNat) ≤ (c.after t .learn (lineRuns t .learn cols)).toNat
        ∧ (c.after t .learn (lineRuns t .learn cols)).toNat ≤ max c.background.toNat (256 * c.pixel.toNat)
        ∧ (t.learnShift = 0 → (c.after t .learn (lineRuns t .learn cols)).toNat = 256 * c.pixel.toNat))
      ∧ (c.takesPart t = false → c.after t .learn (lineRuns t .learn cols) = c.background)

/-- ANALYSIS_END with nothing staged: the line leaves the queue and the next begins, the scan position is the stamp + ldiv, one line is
counted, the reference is tracked, and the learn count steps for a LEARN line (R12, R21, R29 to R31). -/
def Obligations.AnalysisEndTakesEffect : Prop :=
  ∀ (s : State) (l : Line) (rest : List Line) (mode : LineMode), s.settled = true → s.lcu.lineQueue = l :: rest →
    s.fdu.analysis = some mode → s.fdu.stagedDetect = none → s.fdu.stagedColumns = none → s.fdu.stagedReference = none →
    ∃ t, exec .analysisEnd s = .next t
      ∧ t.lcu.lineQueue = rest
      ∧ t.fdu.scan = l.stamp + BitVec.ofNat 32 s.fdu.detect.ldiv
      ∧ t.sac.counters.lines = satAdd max32 s.sac.counters.lines 1
      ∧ t.fdu.reference
          = referenceAfter s.fdu.detect mode (columnsOf s.fdu.columns s.fdu.reference l.pixels) s.fdu.reference
      ∧ (mode = .learn → t.fdu.learnCount = s.fdu.learnCount - 1)
      ∧ (mode = .run → t.fdu.learnCount = s.fdu.learnCount)
      ∧ (rest = [] → t.fdu.analysis = none) ∧ (rest ≠ [] → t.fdu.analysis.isSome = true)
      ∧ t.lcu.counter = s.lcu.counter ∧ t.lcu.fifo = s.lcu.fifo ∧ t.fdu.columns = s.fdu.columns ∧ t.fdu.detect = s.fdu.detect
      ∧ t.cdu.bridges = s.cdu.bridges ∧ t.tru.flight = s.tru.flight

/-! ### Blobs and flaws -/

/-- The next blob id is free, lies in 1 to 65535, and every id stepped over on the way to it is held (R41). -/
def Obligations.BlobIdIsTheNextFree : Prop :=
  ∀ (held : List Nat) (last : Nat), held.length < 65535 →
    1 ≤ nextBlobId held last ∧ nextBlobId held last ≤ 65535 ∧ nextBlobId held last ∉ held
      ∧ ∃ n, nextBlobId held last = Nat.repeat idAfter (n + 1) last ∧ ∀ m, m < n → Nat.repeat idAfter (m + 1) last ∈ held

/-- A run that matches no open blob creates one, with the next id and the run's features, or is lost on a full table; one that matches blobs is
added to the one of them with the earliest first_pos, then the lowest id, which takes in the others and keeps its place, id, polarity,
first_pos and CONTINUED (R44 to R47). With the line's runs linked, blobs that received a run and have reached max_blob_counts are split,
and blobs quiet beyond the gap tolerance close; closed blobs of area other than 0 enter the store in ascending id, as far as it has room,
those split flagged SPLIT; each split blob is followed by an empty successor that begins at the next line (R42, R48 to R50, R58, R59). -/
def Obligations.RunIsPlaced : Prop :=
  (∀ (t : Detect) (stamp : Pos) (ids : List Nat) (l : Linking) (r : Run),
    (l.works.filter (Work.matchesRun t stamp r) = [] → l.works.length < 64 →
      ∃ w : Work, (linkRun t stamp ids l r).works = l.works ++ [w]
        ∧ (linkRun t stamp ids l r).lastId = w.blob.id ∧ (linkRun t stamp ids l r).lost = l.lost
        ∧ w.blob.id = nextBlobId (l.works.map (·.blob.id) ++ ids) l.lastId ∧ w.blob.polarity = r.polarity
        ∧ w.blob.first = stamp ∧ w.blob.last = stamp ∧ w.blob.x0 = r.first ∧ w.blob.x1 = r.last
        ∧ w.blob.cols = some (r.first, r.last) ∧ w.blob.area = r.last - r.first + 1 ∧ w.blob.sum = r.sum
        ∧ w.blob.peak = r.peak ∧ w.blob.lines = 1 ∧ w.blob.merged = false ∧ w.blob.continuedFrom = none)
    ∧ (l.works.filter (Work.matchesRun t stamp r) = [] → 64 ≤ l.works.length →
      linkRun t stamp ids l r = { l with lost := true })
    ∧ (∀ w : Work, l.works.filter (Work.matchesRun t stamp r) = [w] → (l.works.map (·.blob.id)).Nodup →
      linkRun t stamp ids l r
        = { l with works := l.works.map fun u => if u.blob.id = w.blob.id then w.addRun stamp r else u })
    ∧ ∀ (o : Pos) (v : Work), (l.works.map (·.blob.id)).Nodup →
      let joined := l.works.filter (Work.matchesRun t stamp r)
      let seen := joined.filterMap fun u => if u.blob.area = 0 then none else u.blob.cols
      let parts := joined.filterMap Work.got
      let lines := (joined.map (·.blob.lines)).foldl max 0
      v ∈ joined → (∀ u ∈ joined, dist o u.blob.first < 2 ^ 31) →
      (∀ u ∈ joined, dist o v.blob.first < dist o u.blob.first ∨ (v.blob.first = u.blob.first ∧ v.blob.id ≤ u.blob.id)) →
      ∃ m : Work,
        linkRun t stamp ids l r
          = { l with
              works := l.works.filterMap fun u =>
                if u.blob.id = v.blob.id then some m else if u.matchesRun t stamp r then none else some u }
        ∧ m.blob.id = v.blob.id ∧ m.blob.polarity = v.blob.polarity ∧ m.blob.first = v.blob.first
        ∧ m.blob.continuedFrom = v.blob.continuedFrom ∧ m.blob.x0 = v.blob.x0 ∧ m.blob.x1 = v.blob.x1
        ∧ m.blob.last = stamp
        ∧ m.blob.cols = some ((seen.map Prod.fst).foldl min r.first, (seen.map Prod.snd).foldl max r.last)
        ∧ m.blob.area = min 16777215 ((joined.map (·.blob.area)).sum + (r.last - r.first + 1))
        ∧ m.blob.sum = min 4294967295 ((joined.map (·.blob.sum)).sum + r.sum)
        ∧ m.blob.peak = (joined.map (·.blob.peak)).foldl max r.peak
        ∧ m.blob.lines = (if parts = [] then min 16777215 (lines + 1) else lines)
        ∧ m.blob.merged = (v.blob.merged || decide (2 ≤ joined.length))
        ∧ m.w0 = (joined.map Work.w0).foldl min r.first ∧ m.w1 = (joined.map Work.w1).foldl max r.last
        ∧ m.got = some ((parts.map Prod.fst).foldl min r.first, (parts.map Prod.snd).foldl max r.last))
  ∧ ∀ (s : State) (stamp : Pos) (runs : List Run), s.fdu.blobs.length ≤ 64 → s.fdu.store.length ≤ 512 →
    let t := s.linkLine stamp runs
    let d := s.fdu.detect
    let l := linkRuns d stamp (s.fdu.store.map Flaw.id) s.fdu.blobs s.fdu.lastBlobId runs
    let extent := fun w : Work =>
      match w.got with
      | some (a, b) => { w.blob with x0 := a, x1 := b }
      | none => w.blob
    let splits := fun w : Work =>
      w.got.isSome && decide ((stamp - w.blob.first).toNat < 2 ^ 31 ∧ d.maxBlobCounts ≤ (stamp - w.blob.first).toNat)
    let quiet := fun b : Blob =>
      decide ((stamp - b.last).toNat < 2 ^ 31 ∧ (d.gapLines + 1) * d.ldiv < (stamp - b.last).toNat)
    let going := (l.works.filter fun w => !splits w).map extent
    ∃ (split : List Blob) (closing : List (Blob × Bool)) (next : List Blob),
      split.Perm ((l.works.filter splits).map extent) ∧ split.Pairwise (fun a b => a.id ≤ b.id)
      ∧ closing.Perm (split.map (fun b => (b, true)) ++ (going.filter quiet).map fun b => (b, false))
      ∧ closing.Pairwise (fun a b => a.1.id ≤ b.1.id)
      ∧ t.fdu.store = (s.fdu.store ++ (closing.filter fun x => decide (x.1.area ≠ 0)).map fun x =>
          x.1.toFlaw d s.fdu.classes s.ppl.grade (x.1.last + BitVec.ofNat 32 d.ldiv) x.2 false).take 512
      ∧ t.fdu.blobs = (going.filter fun b => !quiet b) ++ next
      ∧ next.map Blob.continuedFrom = split.map (fun b => some b.id)
      ∧ next.map (fun b => (b.polarity, b.x0, b.x1)) = split.map (fun b => (b.polarity, b.x0, b.x1))
      ∧ (∀ b ∈ next, b.first = stamp + BitVec.ofNat 32 d.ldiv ∧ b.last = stamp ∧ b.cols = none ∧ b.area = 0 ∧ b.sum = 0 ∧ b.peak = 0
          ∧ b.lines = 0 ∧ b.merged = false ∧ b.id ∉ t.fdu.store.map Flaw.id ∧ ∀ k ∈ going, quiet k = false → b.id ≠ k.id)
      ∧ (next.map Blob.id).Nodup
      ∧ (l.lost = true → d.ldiv ≠ 0 →
          t.sac.counters.lost[3] = satAdd max32 s.sac.counters.lost[3] 1 ∧ t.csu.causes.getLsbD 16 = true)
      ∧ (l.lost = false → t.sac.counters.lost[3] = s.sac.counters.lost[3])
      ∧ t.fdu.detect = s.fdu.detect ∧ t.fdu.scan = s.fdu.scan ∧ t.fdu.reference = s.fdu.reference ∧ t.lcu.fifo = s.lcu.fifo
      ∧ t.ppl = s.ppl ∧ t.cdu = s.cdu ∧ t.rou = s.rou

/-- A flaw's class is that of the first rule that matches, and UNCLASSIFIED if none does (R53). -/
def Obligations.ClassIsTheFirstRuleThatMatches : Prop :=
  ∀ (k : ClassTable) (m : Measure),
    (∀ r ∈ k.rules, r.holds m = false) ∧ k.classOf m = 15
    ∨ ∃ (before after : List ClassRule) (r : ClassRule), k.rules = before ++ r :: after
        ∧ (∀ x ∈ before, x.holds m = false) ∧ r.holds m = true ∧ k.classOf m = r.cls

/-- The effective points of R56's table, and what follows from it: only points of 255 under a weight other than 0 disqualify. -/
def Obligations.EffectivePointsTable : Prop :=
  ∀ base w : Nat, base ≤ 255 → w ≤ 16 →
    (w = 0 → effectivePoints base w = 0)
    ∧ (w ≠ 0 → base = 255 → effectivePoints base w = 255)
    ∧ (w ≠ 0 → base ≠ 255 → effectivePoints base w = min 254 ((base * w + 4) / 8))
    ∧ (effectivePoints base w = 255 ↔ base = 255 ∧ w ≠ 0)

/-! ### Grading and planning -/

/-- A disqualified candidate is CULL, and one with uninspected length is graded no better than gap_cap (R71, R74). -/
def Obligations.GradeIsCapped : Prop :=
  ∀ (s : State) (withBlobs : Bool) (start e : Pos),
    ((s.grading withBlobs start e).disqualified = true → (s.grading withBlobs start e).grade = .cull)
    ∧ ((s.grading withBlobs start e).uninspected ≠ 0 →
        s.ppl.grade.gapCap.code ≤ (s.grading withBlobs start e).grade.code)
    ∧ (s.ppl.grade.bandGrade (s.grading withBlobs start e).disqualified (s.grading withBlobs start e).points).code
        ≤ (s.grading withBlobs start e).grade.code

/-- With the counter at the deadline D of a piece, the shortest product's cut is due exactly issue_margin ahead: it is feasible, and one count
later it is not (R80, R81). When D is computed anew, an expiry is raised at once exactly if the counter has already reached it, and it is taken
before any other command, whichever that is, but the two of PORST_N has its effect (R81, R82). -/
def Obligations.DeadlineIsTheLastFeasibleMoment : Prop :=
  (∀ (s : State) (p : Pos), s.cdu.link.issueMargin < 2 ^ 24 →
    (s.lcu.counter = s.deadlineOf p →
      dist s.lcu.counter (s.firePos (ahead p s.ppl.lmin)) = s.cdu.link.issueMargin
        ∧ s.feasible (ahead p s.ppl.lmin) = true)
    ∧ (s.lcu.counter = s.deadlineOf p + 1 → s.feasible (ahead p s.ppl.lmin) = false))
  ∧ (∀ (s : State) (p : OpenPiece), s.ppl.piece = some p →
      s.armDeadline.ppl.piece = some { p with deadline := s.deadlineOf p.start }
        ∧ (s.armDeadline.expiryOwed = true ↔ (s.lcu.counter - s.deadlineOf p.start).toNat < 2 ^ 31))
  ∧ ∀ (c : Instr) (s : State), (∀ x, c ≠ .powerOnReset x) → c ≠ .porstNLow → s.porstLow = false → s.expiryOwed = true →
      let t := s.clearOutputs.event State.expiry
      t.expiryOwed = false → exec c s = exec c t

/-- A commit with a place in the cut queue: the piece takes the sequence number, is appended WAITING with its fire position, S becomes E and
the deadline is computed anew; the counters of grades and outcomes wait for the outcome (R92, R94, R95). A forced commit that finds the
queue full takes MISSED at once: no entry, one PIECE record, one MISSED outcome counted (R90). -/
def Obligations.CommitTakesItsPlace : Prop :=
  (∀ (s : State) (mode : CommitMode) (start : Pos) (c : Choice), s.cdu.queue.length < 16 →
      let t := s.commit mode start c
      let p := s.pieceOf mode start c
      t.cdu = { s.cdu with queue := s.cdu.queue ++ [{ piece := p, state := .waiting false }] }
      ∧ p.seq = s.ppl.nextPiece ∧ p.start = start ∧ p.stop = c.stop
      ∧ p.fire = c.stop + BitVec.ofNat 32 s.cdu.link.stationOffset - BitVec.ofNat 32 s.cdu.link.lead
      ∧ (c.cutout = true → p.grade = .cull) ∧ (p.forced = true ↔ mode = .forced) ∧ (p.manual = true ↔ mode = .manual)
      ∧ t.ppl.nextPiece = (if s.ppl.nextPiece = 0xFFFFFFFF then 1 else s.ppl.nextPiece + 1)
      ∧ t.ppl.piece = some { start := c.stop, deadline := s.deadlineOf c.stop }
      ∧ t.lcu.gaps = gapClip c.stop s.lcu.gaps
      ∧ t.sac.counters.grades = s.sac.counters.grades ∧ t.sac.counters.outcomes = s.sac.counters.outcomes
      ∧ t.csu.inspection = s.csu.inspection ∧ t.tru.flight = s.tru.flight ∧ t.fdu.reference = s.fdu.reference)
  ∧ ∀ (s : State) (start : Pos) (c : Choice), 16 ≤ s.cdu.queue.length →
      let t := s.commit .forced start c
      t.cdu = s.cdu
      ∧ t.sac.counters.outcomes = bump s.sac.counters.outcomes 1 1
      ∧ (t.channel 1).produced = (s.channel 1).produced + 1
      ∧ t.csu.causes.getLsbD 12 = true
      ∧ t.ppl.piece = some { start := c.stop, deadline := s.deadlineOf c.stop }
      ∧ t.ppl.nextPiece = nextSequence s.ppl.nextPiece

/-- A commit at E assigns to its piece the stored flaws that end at or before E and a copy, cut off at E and flagged CUT_THROUGH, of each that
runs across E, with one flaw record for each flaw assigned; and leaves in the store, in its order, what ends after E: a flaw that runs
across E as a remainder that begins at E, flagged CUT_THROUGH, with its points, that remembers the piece (R61, R93, R95). -/
def Obligations.CutThroughLeavesARemainder : Prop :=
  (∀ (f : Flaw) (e : Pos) (seq : Word),
    (reaches f.stop e = true → f.remainderAt e seq = none)
    ∧ (before f.first e = true → before e f.stop = true →
        f.remainderAt e seq = some { f with first := e, cutThrough := true, remainderOf := some seq }
        ∧ f.copyAt e = { f with stop := e, cutThrough := true })
    ∧ (reaches f.stop e = false → before f.first e = false → f.remainderAt e seq = some f))
  ∧ ∀ (s : State) (mode : CommitMode) (start : Pos) (c : Choice),
    let t := s.commit mode start c
    let e := c.stop
    t.fdu.store = s.fdu.store.filterMap (fun f =>
        if reaches f.stop e then none
        else if before f.first e then some { f with first := e, cutThrough := true, remainderOf := some s.ppl.nextPiece }
        else some f)
    ∧ (∃ truncated : List Flaw,
        s.assigned mode e = s.fdu.store.filterMap (fun f =>
            if reaches f.stop e then some f
            else if before f.first e ∧ before e f.stop then some { f with stop := e, cutThrough := true }
            else none) ++ truncated
        ∧ (mode = .normal → truncated = [])
        ∧ ∀ f ∈ truncated, f.truncated = true ∧ ∃ b ∈ s.fdu.blobs, f.id = b.id ∧ f.first = b.first ∧ b.area ≠ 0 ∧ before b.first e = true)
    ∧ (t.channel 0).produced = (s.channel 0).produced + BitVec.ofNat 32 (s.assigned mode e).length

/-- DEADLINE_EXPIRY on a settled state with nothing staged and a place in the cut queue: the forced decision commits, and the new piece
begins where the committed one ends; the check of the new piece (R91) is taken to wait (R82, R89, R92 to R95). The decisions: the first
product in table order that is feasible, not straddled and meets its floor (R84, R85); else the cut-out behind the earliest flaw that
disqualifies or has cutout_points, at the first position from there that no flaw straddles, if it is feasible (R86, R87); else the first
feasible product, which in a normal decision must not be straddled and is BELOW_FLOOR, and else the decision waits, and which in a forced
one is BELOW_FLOOR if below its floor, and else the late cut (R88, R89). A planner check commits a normal decision when Settled and Clear
hold and the cut queue has a place, and else changes the provisional grade alone (R83, R90, R77). -/
def Obligations.DeadlineExpiryCommits : Prop :=
  (∀ (s : State) (p : OpenPiece), s.settled = true → s.expiryRaised = true → s.ppl.piece = some p →
    s.ppl.stagedGrade = none → s.ppl.stagedProduct = none → s.cdu.queue.length < 16 →
    (s.commit .forced p.start (s.forcedDecision p.start)).normalConditions (s.forcedDecision p.start).stop = false →
    ∃ t, exec .deadlineExpiry s = .next t
      ∧ t.cdu = { s.cdu with
          queue := s.cdu.queue ++ [{ piece := s.pieceOf .forced p.start (s.forcedDecision p.start), state := .waiting false }] }
      ∧ t.ppl.piece = some
          { start := (s.forcedDecision p.start).stop, deadline := s.deadlineOf (s.forcedDecision p.start).stop }
      ∧ t.ppl.nextPiece = nextSequence s.ppl.nextPiece
      ∧ t.ppl.product = s.ppl.product ∧ t.ppl.grade = s.ppl.grade
      ∧ t.lcu.counter = s.lcu.counter ∧ t.lcu.lineQueue = s.lcu.lineQueue ∧ t.fdu.reference = s.fdu.reference
      ∧ t.csu.inspection = s.csu.inspection ∧ t.tru.flight = s.tru.flight)
  ∧ (∀ (s : State) (e : Pos),
    let clear := BitVec.ofNat 32 s.ppl.product.cutClear
    s.straddled e = true ↔
      (∃ f ∈ s.fdu.store, before f.first (e + clear) = true ∧ before (e - clear) f.stop = true)
      ∨ ∃ b ∈ s.fdu.blobs, b.area ≠ 0 ∧ before b.first (e + clear) = true
          ∧ before (e - clear) (b.last + BitVec.ofNat 32 s.fdu.detect.ldiv) = true)
  ∧ (∀ (s : State) (start : Pos),
    (∀ i, firstProduct (fun j => s.usable start j ∧ s.meetsFloor false start j) i →
      s.normalDecision start = some { stop := s.endOf start i, product := some i, cutout := false, belowFloor := false })
    ∧ ((∀ i, ¬(s.usable start i ∧ s.meetsFloor false start i)) →
      (∀ c, s.cutoutStep .normal start = .commits c → s.normalDecision start = some c)
      ∧ (s.cutoutStep .normal start = .waits → s.normalDecision start = none)
      ∧ (s.cutoutStep .normal start = .fallThrough →
          (∀ i, firstProduct (s.usable start) i →
            s.normalDecision start = some { stop := s.endOf start i, product := some i, cutout := false, belowFloor := true })
          ∧ ((∀ i, ¬s.usable start i) → s.normalDecision start = none)))
    ∧ (∀ i, firstProduct (fun j => s.usable start j ∧ s.meetsFloor true start j) i →
      s.forcedDecision start = { stop := s.endOf start i, product := some i, cutout := false, belowFloor := false })
    ∧ ((∀ i, ¬(s.usable start i ∧ s.meetsFloor true start i)) →
      s.cutoutStep .forced start ≠ .waits
      ∧ (∀ c, s.cutoutStep .forced start = .commits c → s.forcedDecision start = c)
      ∧ (s.cutoutStep .forced start = .fallThrough →
          (∀ i, firstProduct (s.reachable start) i →
            ∃ below, s.forcedDecision start = { stop := s.endOf start i, product := some i, cutout := false, belowFloor := below }
              ∧ (below = true ↔ ¬s.meetsFloor true start i))
          ∧ ((∀ i, ¬s.reachable start i) →
            s.forcedDecision start =
              { stop := laterOf (start + BitVec.ofNat 32 s.ppl.product.minStrip)
                  (s.lcu.counter + BitVec.ofNat 32 s.cdu.link.issueMargin + BitVec.ofNat 32 s.cdu.link.lead
                    - BitVec.ofNat 32 s.cdu.link.stationOffset)
                product := none, cutout := false, belowFloor := false }))))
  ∧ (∀ (s : State) (mode : CommitMode) (start : Pos), s.ppl.lmax < 2 ^ 31 →
    let edge := start + BitVec.ofNat 32 s.ppl.lmax
    let worth := fun f : Flaw =>
      (f.first - start).toNat < s.ppl.lmax ∧ (f.points = 255 ∨ s.ppl.grade.cutoutPoints ≤ f.points)
    (∀ v, v ∈ s.cutoutFlaws mode start ↔
      (∃ f ∈ s.fdu.store, worth f ∧ v = { first := f.first, id := f.id, stop := f.stop })
      ∨ (mode ≠ .normal ∧ ∃ b ∈ s.fdu.blobs, b.area ≠ 0
          ∧ worth (b.provisional s.fdu.detect s.fdu.classes s.ppl.grade edge false)
          ∧ v = { first := b.first, id := b.id, stop := b.last + BitVec.ofNat 32 s.fdu.detect.ldiv }))
    ∧ (s.cutoutFlaws mode start = [] → s.cutoutStep mode start = .fallThrough)
    ∧ ∀ v ∈ s.cutoutFlaws mode start,
      (∀ w ∈ s.cutoutFlaws mode start, w ≠ v →
        (v.first - start).toNat < (w.first - start).toNat ∨ (v.first = w.first ∧ v.id < w.id)) →
      let x := settleCut s.ppl.product.cutClear s.extents s.extents.length
        (laterOf (start + BitVec.ofNat 32 s.ppl.product.minStrip) (v.stop + BitVec.ofNat 32 s.ppl.product.cutClear))
      (s.feasible x = false → s.cutoutStep mode start = .fallThrough)
      ∧ (s.feasible x = true → mode = .normal → (∃ b ∈ s.fdu.blobs, before b.first x = true) → s.cutoutStep mode start = .waits)
      ∧ (s.feasible x = true → mode ≠ .normal ∨ (∀ b ∈ s.fdu.blobs, before b.first x = false) →
          s.cutoutStep mode start = .commits { stop := x, product := none, cutout := true, belowFloor := false }))
  ∧ (∀ (clear : Nat) (extents : List (Pos × Pos)) (o x : Pos), clear < 2 ^ 16 → dist o x < 2 ^ 30 →
    (∀ f ∈ extents, dist o f.1 < 2 ^ 30 ∧ dist o f.2 < 2 ^ 30) →
    let y := settleCut clear extents extents.length x
    dist o x ≤ dist o y ∧ (∀ f ∈ extents, straddles clear y f.1 f.2 = false)
    ∧ ∀ p, dist o x ≤ dist o p → dist o p < dist o y → ∃ f ∈ extents, straddles clear p f.1 f.2 = true)
  ∧ ∀ (s : State) (p : OpenPiece), s.ppl.stagedGrade = none → s.ppl.stagedProduct = none → s.ppl.piece = some p →
    let scan := if s.ppl.scanSeen then s.fdu.scan else p.start
    let settled := (scan - p.start).toNat < 2 ^ 31 ∧ s.ppl.lmax + s.ppl.product.settle ≤ (scan - p.start).toNat
    let clear := ∀ b ∈ s.fdu.blobs, before b.first (p.start + BitVec.ofNat 32 (s.ppl.lmax + s.ppl.product.cutClear)) = false
    (¬settled ∨ ¬clear ∨ s.normalDecision p.start = none ∨ 16 ≤ s.cdu.queue.length → s.plannerCheck = s.computeProvisional)
    ∧ ∀ c, settled → clear → s.normalDecision p.start = some c → s.cdu.queue.length < 16 →
        (s.commit .normal p.start c).normalConditions c.stop = false →
        s.plannerCheck = (s.commit .normal p.start c).computeProvisional

/-- MANUAL_CUT: refused as INFEASIBLE with the reason of the first test that fails, changing nothing else; otherwise the piece up to E is
committed with the flag MANUAL, and its number is the result (R96). The check of the new piece (R91) is taken to wait. The reasons stand in
the order of the tests: no open piece, E too near or not after S, not feasible, cut queue full. -/
def Obligations.ManualCut : Prop :=
  (∀ (s : State) (n : Fin 8), s.readyFor n → (s.slot n).command.code = 0x41 → s.ppl.stagedGrade = none → s.ppl.stagedProduct = none →
      (∀ reason, s.manualRefusal (s.slot n).command.arg1 = some reason →
        ∃ t, exec .manualCut s = .next t ∧ s.CompletesAs t n .infeasible reason
          ∧ t.ppl = s.ppl ∧ t.cdu = s.cdu ∧ t.fdu = s.fdu ∧ t.sac = s.sac ∧ t.rou = s.rou ∧ s.tru.onlyOwn t.tru
          ∧ t.lcu = { s.lcu with ltrig := false })
      ∧ ∀ p : OpenPiece, s.ppl.piece = some p → s.manualRefusal (s.slot n).command.arg1 = none →
        let c : Choice := { stop := (s.slot n).command.arg1, product := none, cutout := false, belowFloor := false }
        (s.commit .manual p.start c).normalConditions c.stop = false →
        ∃ t, exec .manualCut s = .next t ∧ s.CompletesAs t n .ok s.ppl.nextPiece
          ∧ t.cdu = { s.cdu with
              queue := s.cdu.queue ++ [{ piece := s.pieceOf .manual p.start c, state := .waiting false }] }
          ∧ t.ppl.piece = some { start := c.stop, deadline := s.deadlineOf c.stop }
          ∧ t.ppl.nextPiece = nextSequence s.ppl.nextPiece ∧ t.lcu.counter = s.lcu.counter ∧ t.fdu.reference = s.fdu.reference)
  ∧ ∀ (s : State) (e : Pos),
      (s.ppl.piece = none → s.manualRefusal e = some 1)
      ∧ ∀ p, s.ppl.piece = some p →
        (dist p.start e < s.ppl.product.minStrip ∨ 2 ^ 31 ≤ dist p.start e → s.manualRefusal e = some 2)
        ∧ (s.ppl.product.minStrip ≤ dist p.start e → dist p.start e < 2 ^ 31 →
          (s.feasible e = false → s.manualRefusal e = some 3)
          ∧ (s.feasible e = true → 16 ≤ s.cdu.queue.length → s.manualRefusal e = some 4)
          ∧ (s.feasible e = true → s.cdu.queue.length < 16 → s.manualRefusal e = none))

/-! ### Cut dispatch -/

/-- A tag passes over 0 and over the tag the chosen bridge last reported, and steps by one or, past that tag, by two (R108); the bytes the
part sends in any transfer add up to 0, five of them in a CUT transfer and two in a POLL (R114, R115). -/
def Obligations.TagsAndFrames : Prop :=
  (∀ last reported : Byte,
    nextTag last reported ≠ 0 ∧ nextTag last reported ≠ reported
      ∧ (tagAfter last ≠ reported → nextTag last reported = tagAfter last)
      ∧ (tagAfter last = reported → nextTag last reported = tagAfter reported)
      ∧ tagAfter last = (if last = 255 then 1 else last + 1))
  ∧ ∀ s : State,
    (s.linkFrame.map BitVec.toNat).sum % 256 = 0
      ∧ (∀ b sent, s.cdu.engine = .pollXfer b sent → s.linkFrame.length = 2)
      ∧ ∀ b piece tag lane sent, s.cdu.engine = .cutXfer b piece tag lane sent →
          s.linkFrame.length = 5 ∧ s.linkFrame[1]? = some tag
            ∧ s.linkFrame[2]?.map BitVec.toNat = some (piece.toNat % 256)

/-- ENTRY_DUE in GAP: the head WAITING entry, due, is sent to the lowest-numbered IDLE bridge under the next tag; the gap runs on, and
nothing else changes (R105, R108, R113). -/
def Obligations.EntryDueStartsTheTransfer : Prop :=
  ∀ (s : State) (ahead behind : List Entry) (e : Entry) (b : Fin 4),
    s.closed = true → s.porstLow = false → s.expiryOwed = false → s.cdu.missTest = false → s.cdu.timeoutTest = false → s.cdu.engine = .gap →
    s.cdu.queue = ahead ++ e :: behind → (∀ x ∈ ahead, x.isWaiting = false) → e.isWaiting = true →
    reaches e.piece.fire s.lcu.counter = true →
    (s.bridge b).state = .idle → (∀ c, c < b → (s.bridge c).state ≠ .idle) →
    let tag := nextTag s.cdu.tag (s.bridge b).lastTag
    exec .entryDue s = .next
      { s with
        lcu.ltrig := false, tru.answers := []
        cdu.queue := s.cdu.queue.map fun x => if x.piece.seq = e.piece.seq then { x with state := .waiting true } else x
        cdu.tag := tag
        cdu.engine := .cutXfer b e.piece.seq tag e.piece.lane false }

/-- ENTRY_MISSED: exactly the pieces of the WAITING entries not in transfer whose F + miss_tol the counter has reached leave the queue, each
with the outcome MISSED and one PIECE record, by the miss_tol of the last counter event; bridges and engine are as before (R104, R105,
R122). -/
def Obligations.MissTest : Prop :=
  ∀ s : State, s.porstLow = false → s.closed = true → s.expiryOwed = false → s.cdu.missTest = true →
    let missed := s.cdu.queue.filter fun e =>
      decide (e.state = .waiting false) && reaches (e.piece.fire + BitVec.ofNat 32 s.cdu.missTol) s.lcu.counter
    ∃ t, exec .entryMissed s = .next t ∧ t.cdu.missTest = false
      ∧ t.cdu.queue = s.cdu.queue.filter (fun x => !missed.any fun e => x.piece.seq == e.piece.seq)
      ∧ (missed = [] → t.sac = s.sac ∧ t.csu.causes = s.csu.causes)
      ∧ (missed ≠ [] →
          t.sac.counters.outcomes[1] = satAdd max32 s.sac.counters.outcomes[1] missed.length ∧ t.csu.causes.getLsbD 12 = true)
      ∧ (t.channel 1).produced = (s.channel 1).produced + BitVec.ofNat 32 missed.length
      ∧ t.cdu.bridges = s.cdu.bridges ∧ t.cdu.engine = s.cdu.engine ∧ t.cdu.tag = s.cdu.tag ∧ t.cdu.link = s.cdu.link
      ∧ t.cdu.timeoutTest = s.cdu.timeoutTest ∧ t.cdu.missTol = s.cdu.missTol
      ∧ t.lcu = { s.lcu with ltrig := false } ∧ t.fdu = s.fdu ∧ t.ppl = s.ppl ∧ t.tru.flight = s.tru.flight

/-- CUT_TIMEOUT: every bridge whose order's issue position lies cut_timeout or more behind the counter goes to FAULT with code TIMEOUT, or to
DISABLED if its enable bit is clear, its piece leaves the queue FAULTED, and every other bridge is as before (R104, R107, R109, R111). That a
bridge going to DISABLED has no bridge fault counted and miss count 0 is the model's choice (log entry 14). -/
def Obligations.TimeoutTest : Prop :=
  ∀ s : State, s.porstLow = false → s.expiryOwed = false → s.cdu.timeoutTest = true →
    let out : Fin 4 → Entry → Bool := fun b e =>
      e.issued.any fun x => decide (x.1 = b) && decide (s.cdu.link.cutTimeout ≤ dist x.2.2 s.lcu.counter)
    let entries := s.cdu.queue.filter fun e => e.issued.any fun x => s.cdu.queue.any (out x.1)
    ∃ t, exec .cutTimeout s = .next t ∧ t.cdu.timeoutTest = false
      ∧ (∀ b, s.cdu.queue.any (out b) = true →
          t.bridge b
            = (if s.cdu.mask.getLsbD b.val then { s.bridge b with state := .fault, faultCode := 0x80 }
              else { s.bridge b with state := .disabled, misses := 0, faultCode := 0x80 })
          ∧ t.sac.counters.bridgeFaults[b]
            = (if s.cdu.mask.getLsbD b.val then satAdd max32 s.sac.counters.bridgeFaults[b] 1
              else s.sac.counters.bridgeFaults[b])
          ∧ t.csu.causes.getLsbD 13 = true)
      ∧ (∀ b, s.cdu.queue.any (out b) = false → t.bridge b = s.bridge b)
      ∧ t.cdu.queue = s.cdu.queue.filter (fun x => !entries.any fun e => x.piece.seq == e.piece.seq)
      ∧ (entries ≠ [] → t.sac.counters.outcomes[2] = satAdd max32 s.sac.counters.outcomes[2] entries.length)
      ∧ (entries = [] → t.sac = s.sac)
      ∧ t.cdu.mask = s.cdu.mask ∧ t.cdu.tag = s.cdu.tag ∧ t.cdu.missTest = s.cdu.missTest
      ∧ t.lcu = { s.lcu with ltrig := false } ∧ t.fdu = s.fdu ∧ t.ppl = s.ppl ∧ t.tru.flight = s.tru.flight

/-- CUT_TRANSFER_END with no staged LINK table and no new mask. ACCEPT makes the entry ISSUED and the bridge BUSY with its tag and piece;
REFUSE leaves the entry WAITING, if it is not missed, and makes the bridge NOT_READY; any other bytes leave the accept uncertain, as ACCEPT
does, with a miss charged (R106, R110, R112, R115, R118). The third miss is left out of this statement. -/
def Obligations.CutTransferEnds : Prop :=
  ∀ (s : State) (code check : Byte) (b : Fin 4) (piece : Word) (tag : Byte) (lane : Nat) (sent : Bool),
    s.settled = true → s.cdu.engine = .cutXfer b piece tag lane sent → (sent = true ∨ s.cdu.lckHeld = false) →
    s.cdu.stagedLink = none → s.cdu.newMask = none → (s.bridge b).misses < 2 →
    (∀ x ∈ s.cdu.queue, x.piece.seq = piece → reaches (x.piece.fire + BitVec.ofNat 32 s.cdu.missTol) s.lcu.counter = false) →
    let accepted := code = 0x06 ∧ check = 0xFA
    let refused := code = 0x15 ∧ check = 0xEB
    ∃ t, exec (.cutTransferEnd code check) s = .next t
      ∧ (accepted → t.bridge b = { s.bridge b with state := .busy tag piece, misses := 0 })
      ∧ (refused → t.bridge b = { s.bridge b with state := .notReady, misses := 0 })
      ∧ (¬accepted → ¬refused →
          t.bridge b = { s.bridge b with state := .busy tag piece, misses := (s.bridge b).misses + 1 }
          ∧ t.sac.counters.bridgeMisses[b] = satAdd max32 s.sac.counters.bridgeMisses[b] 1)
      ∧ (¬refused → ∀ x ∈ s.cdu.queue, x.piece.seq = piece →
          { x with state := .issued b tag s.lcu.counter } ∈ t.cdu.queue)
      ∧ (refused → ∀ x ∈ s.cdu.queue, x.piece.seq = piece → ∃ w, { x with state := .waiting w } ∈ t.cdu.queue)
      ∧ t.cdu.queue.map Entry.piece = s.cdu.queue.map Entry.piece
      ∧ (∀ c, c ≠ b → t.bridge c = s.bridge c)
      ∧ t.sac.counters.outcomes = s.sac.counters.outcomes ∧ t.sac.counters.grades = s.sac.counters.grades
      ∧ t.cdu.mask = s.cdu.mask ∧ t.cdu.link = s.cdu.link
      ∧ t.lcu = { s.lcu with ltrig := false } ∧ t.fdu = s.fdu ∧ t.ppl = s.ppl ∧ t.tru.flight = s.tru.flight

/-- POLL_TRANSFER_END with nothing waiting for the boundary, by the tables of R119 and R120. A BUSY bridge that reports DONE with the
outstanding tag: the piece leaves the queue with the outcome CUT and one PIECE record, and the bridge is IDLE with its miss count clear and
this last report. Every other good response of a BUSY bridge keeps the order, faults it, or returns its entry to WAITING, MISSED if it is
past F + miss_tol, and moves the bridge, to DISABLED if its enable bit is clear. A good response of a bridge that is not BUSY moves it to
IDLE, NOT_READY or FAULT. Any other response charges a miss, and the third takes the bridge OFFLINE and faults its piece (R104 to R107, R110,
R111, R115, R119, R120, R171). That a bridge going to DISABLED has no bridge fault counted and miss count 0 is the model's choice (log
entry 14). -/
def Obligations.DoneCutsThePiece : Prop :=
  (∀ (s : State) (status tag check : Byte) (b : Fin 4) (sent : Bool) (e : Entry),
    s.settled = true → s.cdu.engine = .pollXfer b sent → (sent = true ∨ s.cdu.lckHeld = false) →
    s.cdu.stagedLink = none → s.cdu.newMask = none → s.cdu.mask.getLsbD b.val = true →
    (s.bridge b).state = .busy tag e.piece.seq → s.entryOf e.piece.seq = some e →
    status.toNat / 16 = 3 → (status.toNat + tag.toNat + check.toNat) % 256 = 0 →
    ∃ t, exec (.pollTransferEnd status tag check) s = .next t
      ∧ t.bridge b = { state := .idle, misses := 0, lastStatus := status, lastTag := tag, faultCode := (s.bridge b).faultCode }
      ∧ (∀ c, c ≠ b → t.bridge c = s.bridge c)
      ∧ t.cdu.queue.map Entry.piece = (s.cdu.queue.map Entry.piece).filter (fun p => p.seq != e.piece.seq)
      ∧ t.sac.counters.outcomes = bump s.sac.counters.outcomes 0 1
      ∧ t.sac.counters.grades = bump s.sac.counters.grades e.piece.grade.code 1
      ∧ (t.channel 1).produced = (s.channel 1).produced + 1
      ∧ t.cdu.mask = s.cdu.mask ∧ t.cdu.link = s.cdu.link
      ∧ t.lcu = { s.lcu with ltrig := false } ∧ t.fdu = s.fdu ∧ t.ppl = s.ppl ∧ t.tru.flight = s.tru.flight)
  ∧ ∀ (s : State) (status tag check : Byte) (b : Fin 4) (sent : Bool),
    s.settled = true → s.cdu.engine = .pollXfer b sent → (sent = true ∨ s.cdu.lckHeld = false) →
    s.cdu.stagedLink = none → s.cdu.newMask = none → (s.cdu.queue.map fun x => x.piece.seq).Nodup →
    let x := s.bridge b
    let bit := s.cdu.mask.getLsbD b.val
    let kind := status.toNat / 16
    let good := (status.toNat + tag.toNat + check.toNat) % 256 = 0 ∧ 1 ≤ kind ∧ kind ≤ 4
    let misses := min 3 (x.misses + 1)
    let reported := { x with misses := 0, lastStatus := status, lastTag := tag }
    let faulted := { reported with faultCode := status &&& 0x0F }
    let same := fun t : State =>
      t.cdu.queue.map Entry.piece = s.cdu.queue.map Entry.piece ∧ t.sac.counters.outcomes = s.sac.counters.outcomes
        ∧ (t.channel 1).produced = (s.channel 1).produced
    let taken := fun (t : State) (e : Entry) (o : Fin 4) (bit : Nat) =>
      t.cdu.queue.map Entry.piece = (s.cdu.queue.map Entry.piece).filter (fun p => p.seq != e.piece.seq)
        ∧ t.sac.counters.outcomes = bump s.sac.counters.outcomes o 1
        ∧ t.sac.counters.grades = bump s.sac.counters.grades e.piece.grade.code 1
        ∧ (t.channel 1).produced = (s.channel 1).produced + 1 ∧ t.csu.causes.getLsbD bit = true
    let returns := fun (t : State) (e : Entry) =>
      if reaches (e.piece.fire + BitVec.ofNat 32 s.cdu.missTol) s.lcu.counter then taken t e 1 12
      else same t ∧ ∃ w, { e with state := .waiting w } ∈ t.cdu.queue
    let faults := fun (t : State) (n : Nat) =>
      t.sac.counters.bridgeFaults = bump s.sac.counters.bridgeFaults b n ∧ (n = 1 → t.csu.causes.getLsbD 13 = true)
    let missed := fun t : State => t.sac.counters.bridgeMisses = bump s.sac.counters.bridgeMisses b 1
    ∃ t, exec (.pollTransferEnd status tag check) s = .next t
      ∧ (∀ (out : Byte) (e : Entry), x.state = .busy out e.piece.seq → e ∈ s.cdu.queue →
          (good → kind = 2 → tag = out → t.bridge b = reported ∧ same t ∧ (e.isWaiting = false → e ∈ t.cdu.queue))
          ∧ (good → kind = 3 → tag = out →
              t.bridge b = { reported with state := if bit then .idle else .disabled }
                ∧ t.sac.counters.outcomes = bump s.sac.counters.outcomes 0 1
                ∧ t.cdu.queue.map Entry.piece = (s.cdu.queue.map Entry.piece).filter fun p => p.seq != e.piece.seq)
          ∧ (good → kind = 1 ∨ (kind = 3 ∧ tag ≠ out) →
              t.bridge b = { reported with state := if bit then .idle else .disabled } ∧ returns t e)
          ∧ (good → kind = 2 → tag ≠ out →
              t.bridge b = { reported with state := if bit then .notReady else .disabled } ∧ returns t e)
          ∧ (good → kind = 4 →
              t.bridge b = { faulted with state := if bit then .fault else .disabled }
                ∧ (bit = true → faults t 1) ∧ (bit = false → t.sac.counters.bridgeFaults = s.sac.counters.bridgeFaults)
                ∧ (tag = out → taken t e 2 13) ∧ (tag ≠ out → returns t e))
          ∧ (¬good → misses < 3 → t.bridge b = { x with misses := misses } ∧ missed t ∧ same t)
          ∧ (¬good → misses = 3 →
              t.bridge b = (if bit then { x with state := .offline, misses := 3 } else { x with state := .disabled, misses := 0 })
                ∧ missed t ∧ taken t e 2 13))
      ∧ (x.state = .offline ∨ x.state = .idle ∨ x.state = .notReady ∨ x.state = .fault →
          same t
          ∧ (good → kind = 1 ∨ kind = 3 → t.bridge b = { reported with state := .idle })
          ∧ (good → kind = 2 → t.bridge b = { reported with state := .notReady })
          ∧ (good → kind = 4 → t.bridge b = { faulted with state := .fault }
              ∧ (x.state ≠ .fault → faults t 1) ∧ (x.state = .fault → t.sac.counters.bridgeFaults = s.sac.counters.bridgeFaults))
          ∧ (¬good → missed t
              ∧ t.bridge b = { x with misses := misses, state := if misses = 3 then .offline else x.state }
              ∧ (misses = 3 → x.state ≠ .offline → t.csu.causes.getLsbD 13 = true)))
      ∧ (∀ c, c ≠ b → t.bridge c = s.bridge c)
      ∧ t.cdu.mask = s.cdu.mask ∧ t.cdu.link = s.cdu.link
      ∧ t.lcu = { s.lcu with ltrig := false } ∧ t.fdu = s.fdu ∧ t.ppl = s.ppl ∧ t.tru.flight = s.tru.flight

/-- A new round begins at the lowest-numbered bridge not DISABLED, at the end of the gap and on leaving STUCK; nothing else changes (R112,
R117). -/
def Obligations.NewRound : Prop :=
  ∀ (s : State) (b : Fin 4), s.quiet = true → (s.bridge b).state ≠ .disabled → (∀ c, c < b → (s.bridge c).state = .disabled) →
    (s.cdu.engine = .gap → s.cdu.gapRunning = true →
      exec .pollGapEnd s = .next
        { s with
          lcu.ltrig := false, tru.answers := []
          cdu.gapTime := s.cdu.gapLen, cdu.gapRunning := false, cdu.loopPos := 0, cdu.engine := .pollXfer b false })
    ∧ (s.cdu.engine = .stuck →
      exec .stuckExit s = .next
        { s with
          lcu.ltrig := false, tru.answers := []
          cdu.lckHeld := false, cdu.gapRunning := false, cdu.loopPos := 0, cdu.engine := .pollXfer b false })

/-- TRANSFER_ABANDON, nothing waiting for the boundary: a miss is charged against the addressed bridge, in its own count and in the shift's,
and an order whose check byte had been sent is first taken as issued; the third miss takes the bridge OFFLINE. With LCK still low the
engine then enters STUCK: every bridge not DISABLED is OFFLINE with its miss count kept, or DISABLED if it is BUSY without its enable bit,
no entry is ISSUED any more, and BRIDGE_FAULT is set. With LCK seen high the engine goes on (R107, R110, R114, R116 to R118). That a BUSY
bridge going to DISABLED takes miss count 0 is the model's choice (log entry 14). -/
def Obligations.AbandonedTransfer : Prop :=
  ∀ (s : State) (point : AbandonPoint) (b : Fin 4), s.settled = true → s.cdu.stagedLink = none → s.cdu.newMask = none →
    ((∃ sent, s.cdu.engine = .pollXfer b sent) ∨ ∃ piece tag lane sent, s.cdu.engine = .cutXfer b piece tag lane sent) →
    let bit := fun c : Fin 4 => s.cdu.mask.getLsbD c.val
    let misses := min 3 ((s.bridge b).misses + 1)
    let busy := fun c : Fin 4 => ∃ tag piece, (s.bridge c).state = .busy tag piece
    -- the order of a CUT transfer on the link is taken as issued
    let uncertain := ∃ piece tag lane sent, s.cdu.engine = .cutXfer b piece tag lane sent
      ∧ point = .afterCheck ∧ (sent = true ∨ s.cdu.lckHeld = false)
    let lost := fun c : Fin 4 => (busy c ∨ (c = b ∧ uncertain)) ∧ bit c = false
    (∃ t, exec (.transferAbandon point .stillLow) s = .next t
      ∧ t.cdu.engine = .stuck ∧ t.cdu.lckHeld = true ∧ t.cdu.loopPos = 0
      ∧ (∀ c, (t.bridge c).state = .offline ∨ (t.bridge c).state = .disabled)
      ∧ (∀ c, (s.bridge c).state = .disabled → c ≠ b → t.bridge c = s.bridge c)
      ∧ (∀ c, lost c → t.bridge c = { s.bridge c with state := .disabled, misses := 0 })
      ∧ (∀ c, c ≠ b → (s.bridge c).state ≠ .disabled → ¬lost c → t.bridge c = { s.bridge c with state := .offline })
      ∧ ((s.bridge b).state = .disabled → ¬uncertain → t.bridge b = { s.bridge b with misses := misses })
      ∧ ((s.bridge b).state ≠ .disabled ∨ uncertain → ¬lost b → t.bridge b = { s.bridge b with state := .offline, misses := misses })
      ∧ (∀ e ∈ t.cdu.queue, e.issued = none)
      ∧ t.csu.causes.getLsbD 13 = true
      ∧ t.sac.counters.bridgeMisses[b] = satAdd max32 s.sac.counters.bridgeMisses[b] 1
      ∧ t.lcu = { s.lcu with ltrig := false } ∧ t.fdu = s.fdu ∧ t.ppl = s.ppl ∧ t.tru.flight = s.tru.flight)
    ∧ ∃ t, exec (.transferAbandon point .seenHigh) s = .next t
      ∧ t.cdu.engine ≠ .stuck ∧ t.cdu.lckHeld = false
      ∧ t.sac.counters.bridgeMisses[b] = satAdd max32 s.sac.counters.bridgeMisses[b] 1
      ∧ (misses < 3 → ¬uncertain → t.bridge b = { s.bridge b with misses := misses })
      ∧ (misses < 3 → ∀ piece tag lane sent, s.cdu.engine = .cutXfer b piece tag lane sent → uncertain →
          t.bridge b = { s.bridge b with state := .busy tag piece, misses := misses })
      ∧ (misses = 3 → lost b → t.bridge b = { s.bridge b with state := .disabled, misses := 0 })
      ∧ (misses = 3 → ¬lost b → (s.bridge b).state ≠ .disabled ∨ uncertain →
          t.bridge b = { s.bridge b with state := .offline, misses := 3 })
      ∧ (∀ c, c ≠ b → t.bridge c = s.bridge c)
      ∧ t.lcu = { s.lcu with ltrig := false } ∧ t.fdu = s.fdu ∧ t.ppl = s.ppl ∧ t.tru.flight = s.tru.flight

/-- LINK_LINES_SEEN_HIGH: a delayed START mark is sent and the transfer runs; nothing else changes (R114). -/
def Obligations.DelayedStart : Prop :=
  ∀ s : State, s.quiet = true →
    (∀ b, s.cdu.engine = .pollXfer b false →
      exec .linkLinesSeenHigh s = .next
        { s with lcu.ltrig := false, tru.answers := [], cdu.lckHeld := false, cdu.engine := .pollXfer b true })
    ∧ ∀ b piece tag lane, s.cdu.engine = .cutXfer b piece tag lane false →
      exec .linkLinesSeenHigh s = .next
        { s with lcu.ltrig := false, tru.answers := [], cdu.lckHeld := false, cdu.engine := .cutXfer b piece tag lane true }

/-! ### Memory transit -/

/-- UPSTREAM_REQUEST: a well-formed request is appended PENDING, and classified at once if it is the transit candidate; on a queue of 8 the
requester waits and nothing changes (R125, R126, R128). -/
def Obligations.UpstreamRequestQueues : Prop :=
  ∀ (r : Request) (s : State), s.quiet = true → r.wellFormed = true →
    (s.tru.transit.length < 8 →
      exec (.upstreamRequest r) s = .next
        { s with
          lcu.ltrig := false, tru.answers := []
          tru.transit := s.tru.transit
            ++ [{ req := r, state := .pending, classes := if s.candidate.isSome then none else some (s.classify r), answer := [] }] })
    ∧ (8 ≤ s.tru.transit.length →
      exec (.upstreamRequest r) s = .next { s with lcu.ltrig := false, tru.answers := [] })

/-- Masking clears exactly the enables of the bytes in a protect window, the status block and a slot's result word, byte for byte, and a beat
is hit if and only if one of its enables is cleared. A beat's class follows from its address: control window by its offset, image window,
protect windows 0 to 5 in order, plain. So, with windows at beat addresses, a well-formed write goes downstream with its address, length,
tag and data, and with the enables of exactly the part-owned and protected bytes cleared: no upstream write byte addressed to one reaches
memory (R126 to R129). -/
def Obligations.MaskingClearsPartOwnedBytes : Prop :=
  (∀ (c : BeatClass) (b : Beat),
    (maskBeat c b).data = b.data
    ∧ (∀ k, k < 32 → (maskBeat c b).enables.getLsbD k =
        (b.enables.getLsbD k &&
          match c with
          | .statusBlock => false
          | .commandSlot _ => decide (k < 28)
          | .protect _ => false
          | .controlWords => true
          | .controlOther => true
          | .image => true
          | .plain => true))
    ∧ (beatHit c b = true ↔ (maskBeat c b).enables ≠ b.enables))
  ∧ (∀ (s : State) (a : Nat),
    let offset := a - s.tru.controlBase
    let inside := fun w : Window => w.base ≤ a ∧ a < w.base + w.size
    (s.controlByte a →
      (offset < 0x100 → s.beatClass a = .statusBlock)
      ∧ (∀ n : Fin 8, 0x100 + 32 * n.val ≤ offset → offset < 0x120 + 32 * n.val → s.beatClass a = .commandSlot n)
      ∧ (0x200 ≤ offset → offset < 0x220 → s.beatClass a = .controlWords)
      ∧ (0x220 ≤ offset → s.beatClass a = .controlOther))
    ∧ (¬s.controlByte a → inside s.tru.params.image → s.beatClass a = .image)
    ∧ (∀ k : Fin 6, ¬s.controlByte a → ¬inside s.tru.params.image → inside s.tru.params.protect[k] →
        (∀ j : Fin 6, j < k → ¬inside s.tru.params.protect[j]) → s.beatClass a = .protect k)
    ∧ (¬s.controlByte a → ¬inside s.tru.params.image → (∀ k : Fin 6, ¬inside s.tru.params.protect[k]) → s.beatClass a = .plain))
  ∧ ∀ (s : State) (r : Request), r.wellFormed = true → r.kind = .write → s.tru.controlBase % 32 = 0 →
    s.tru.params.image.beatAligned → (∀ k : Fin 6, s.tru.params.protect[k].beatAligned) →
    let sent := TransitEntry.wire { req := r, state := .pending, classes := some (s.classify r), answer := [] }
    sent.kind = .write ∧ sent.addr = r.addr ∧ sent.length = r.length ∧ sent.tag = r.tag
    ∧ sent.beats.map Beat.data = r.beats.map Beat.data
    ∧ ∀ (i j : Nat) (b c : Beat), r.beats[i]? = some b → sent.beats[i]? = some c → j < 32 →
        (c.enables.getLsbD j = true ↔ b.enables.getLsbD j = true
          ∧ ¬s.partOwned (r.addr.toNat + 32 * i + j) ∧ ¬s.protectedByte (r.addr.toNat + 32 * i + j))

/-- FULLY_MASKED_FORWARD: a fully masked write at the head, with every request behind it PENDING, is answered upstream without going
downstream; its beats hit are counted; no block sees it (R125, R126, R129, R130). -/
def Obligations.FullyMaskedWriteIsAnswered : Prop :=
  ∀ (s : State) (e : TransitEntry) (rest : List TransitEntry), s.porstLow = false → s.closed = true → s.expiryOwed = false →
    s.tru.transit = e :: rest → e.state = .pending → e.fullyMasked = true → (∀ x ∈ rest, x.state = .pending) →
    ∃ t, exec .fullyMaskedForward s = .next t
      ∧ t.tru.transit.map TransitEntry.req = rest.map TransitEntry.req
      ∧ t.tru.answers = [{ tag := e.req.tag, data := e.answer }]
      ∧ t.tru.flight = s.tru.flight ∧ t.tru.share = s.tru.share
      ∧ t.tru.hits = s.tru.hits + BitVec.ofNat 32 e.hits
      ∧ (e.hits ≠ 0 →
          t.sac.counters.protectedBeats = satAdd max32 s.sac.counters.protectedBeats e.hits ∧ t.csu.causes.getLsbD 15 = true)
      ∧ (e.hits = 0 → t.sac = s.sac ∧ t.csu = s.csu)
      ∧ t.csu.slots = s.csu.slots ∧ t.csu.fifo = s.csu.fifo ∧ t.rou = s.rou
      ∧ t.tru.ackShadow = s.tru.ackShadow ∧ t.tru.enableShadow = s.tru.enableShadow ∧ t.tru.stopShadow = s.tru.stopShadow
      ∧ t.lcu = { s.lcu with ltrig := false } ∧ t.fdu = s.fdu ∧ t.ppl = s.ppl ∧ t.cdu = s.cdu

/-- DOWNSTREAM_GRANT: the arbiter grants the candidate that is ready, and of two the own head once own_share transit grants have been counted;
the share count follows. A granted transit request goes downstream as masked, and its write beats are observed in ascending order; an own
request goes downstream with source tag 0xFF and every byte enabled (R126, R130, R132, R133, R135). That the 256 bytes of a status write are
those of the state before the grant, taken before the CMD_DONE of the STATUS_REFRESH it serves, is the model's choice (log entry 26). What an observed image beat does in
the line capture unit while inspection is LEARN or RUN: a full beat at a slot start begins a line, which drops the surplus stamps as trigger
overruns and takes the oldest stamp left, or an extrapolated one; a full beat at the expected address continues it; any other loses it as
a line break and is judged afresh; a complete line begins analysis, waits, or is lost as an analysis overrun (R6 to R11). -/
def Obligations.ArbiterGrants : Prop :=
  (∀ s : State, s.quiet = true →
    ∃ t, exec .downstreamGrant s = .next t
      ∧ (s.transitReady = none → s.ownReady = none → t = { s with lcu.ltrig := false, tru.answers := [] })
      ∧ (∀ r, s.ownReady = some r → s.transitReady = none ∨ s.tru.params.ownShare ≤ s.tru.share →
          t.tru.flight = s.tru.flight ++ [.own { r with data := s.grantedData r }] ∧ t.tru.share = 0
          ∧ s.tru.own.tail <+: t.tru.own ∧ t.tru.transit = s.tru.transit)
      ∧ (∀ e, s.transitReady = some e → s.ownReady = none ∨ s.tru.share < s.tru.params.ownShare →
          let share := if s.ownReady.isSome then s.tru.share + 1 else s.tru.share
          let sent : State :=
            { s with
              lcu.ltrig := false, tru.answers := [], tru.flight := s.tru.flight ++ [.transit e.wire], tru.share := share
              tru.transit := onFirst TransitEntry.isPending (fun x => { x with state := .forwarded }) s.tru.transit }
          t.tru.flight = s.tru.flight ++ [.transit e.wire]
          ∧ t.tru.share = share
          ∧ s.tru.own <+: t.tru.own ∧ t.tru.transit.map TransitEntry.req = s.tru.transit.map TransitEntry.req
          ∧ t.tru.hits = s.tru.hits + BitVec.ofNat 32 e.hits
          ∧ t.lcu = (if e.req.kind = .write then e.maskedBeats.foldl State.observe (sent.countHits e.hits) else sent).lcu)
      ∧ t.cdu.bridges = s.cdu.bridges ∧ t.lcu.counter = s.lcu.counter)
  ∧ (∀ r : OwnRequest, r.wire.kind = r.kind ∧ r.wire.addr.toNat = r.addr % 2 ^ 40 ∧ r.wire.length = r.beats ∧ r.wire.tag = 0xFF
      ∧ (r.kind = .read → r.wire.beats = [])
      ∧ (r.kind = .write → r.data.length = 32 * r.beats →
          r.wire.beats.length = r.beats ∧ r.wire.beats.flatMap Beat.data = r.data
          ∧ ∀ b ∈ r.wire.beats, ∀ j, j < 32 → b.enables.getLsbD j = true))
  ∧ (∀ (s : State) (addr : Nat) (b : Beat),
      (b.enables = 0 → s.observe (.image, addr, b) = s)
      ∧ (s.csu.inspection = .off ∨ s.csu.inspection = .stopping → s.observe (.image, addr, b) = s)
      ∧ (s.csu.inspection = .learn ∨ s.csu.inspection = .run → b.enables ≠ 0 →
          s.observe (.image, addr, b) = s.imageBeat addr b.data b.enables))
  ∧ ∀ (s : State) (addr : Nat) (data : List Byte) (enables : BitVec 32),
    let px := s.fdu.detect.linePx
    let window := s.tru.params.image
    let full := enables = BitVec.allOnes 32
    let slotStart := fun k : Nat => addr = window.base + k * px ∧ k < window.size / px
    let t := s.imageBeat addr data enables
    let range := fun p : Pos => ({ start := p, length := s.fdu.detect.ldiv } : Gap)
    0 < px → s.fdu.detect.ldiv ≠ 0 →
    (s.lcu.assembly = none → ¬(full ∧ ∃ k, slotStart k) → t = s)
    ∧ (∀ k, s.lcu.assembly = none → full → slotStart k → 32 < px →
        let surplus := s.lcu.fifo.takeWhile fun p => !before s.lcu.lastStamp p
        let left := s.lcu.fifo.drop surplus.length
        let stamp := left.headD (s.lcu.lastStamp + BitVec.ofNat 32 s.fdu.detect.ldiv)
        t.lcu = { s.lcu with
          fifo := left.tail, lastStamp := stamp, gaps := (surplus.map range).foldl gapAdd s.lcu.gaps
          assembly := some
            { slot := k, stamp := stamp, extrapolated := left.isEmpty, received := 1, next := addr + 32, pixels := data } }
        ∧ t.sac.counters.lost[0] = (if surplus = [] then s.sac.counters.lost[0] else satAdd max32 s.sac.counters.lost[0] surplus.length)
        ∧ (surplus ≠ [] → t.csu.causes.getLsbD 16 = true)
        ∧ t.sac.counters.extrapolated
          = (if left = [] then satAdd max32 s.sac.counters.extrapolated 1 else s.sac.counters.extrapolated)
        ∧ t.fdu = s.fdu)
    ∧ ∀ a, s.lcu.assembly = some a →
      (full → addr = a.next → 32 * (a.received + 1) < px →
        t = { s with
          lcu.assembly := some { a with received := a.received + 1, next := a.next + 32, pixels := a.pixels ++ data } })
      ∧ (full → addr = a.next → px ≤ 32 * (a.received + 1) →
        let line : Line := { stamp := a.stamp, extrapolated := a.extrapolated, slot := a.slot, pixels := a.pixels ++ data }
        (s.lcu.lineQueue = [] → s.fdu.stagedDetect = none →
          t.lcu = { s.lcu with assembly := none, lineQueue := [line] } ∧ t.fdu.analysis = some s.fdu.mode ∧ t.sac = s.sac)
        ∧ (∀ first, s.lcu.lineQueue = [first] → t = { s with lcu.assembly := none, lcu.lineQueue := [first, line] })
        ∧ (2 ≤ s.lcu.lineQueue.length →
          t.lcu = { s.lcu with assembly := none, gaps := gapAdd s.lcu.gaps (range a.stamp) }
          ∧ t.sac.counters.lost[2] = satAdd max32 s.sac.counters.lost[2] 1
          ∧ t.sac.counters.lostLength[2] = satAdd max32 s.sac.counters.lostLength[2] s.fdu.detect.ldiv
          ∧ t.csu.causes.getLsbD 16 = true ∧ t.fdu = s.fdu))
      ∧ (¬(full ∧ addr = a.next) → ∃ u : State,
          u.lcu = { s.lcu with assembly := none, gaps := gapAdd s.lcu.gaps (range a.stamp) }
          ∧ u.sac.counters = { s.sac.counters with
              lost := bump s.sac.counters.lost 1 1, lostLength := bump s.sac.counters.lostLength 1 s.fdu.detect.ldiv }
          ∧ u.csu.causes.getLsbD 16 = true ∧ u.fdu = s.fdu ∧ u.ppl = s.ppl ∧ u.cdu = s.cdu ∧ u.tru.params = s.tru.params
          ∧ t = u.imageBeat addr data enables)

/-- No granted request of the transit queue touches a byte of an outstanding own write: a read with any byte of its range, a write with any
byte enabled after masking (R134). -/
def Obligations.HazardHold : Prop :=
  ∀ (s t : State) (e : TransitEntry) (w : OwnRequest) (k : Nat), s.quiet = true → s.candidate = some e →
    InFlight.own w ∈ s.tru.flight → w.kind = .write → w.addr ≤ k → k < w.addr + 32 * w.beats →
    exec .downstreamGrant s = .next t → (∃ sent, t.tru.flight = s.tru.flight ++ [.transit sent]) →
    (e.req.kind = .read → ¬(e.req.addr.toNat ≤ k ∧ k < e.req.addr.toNat + 32 * e.req.length))
    ∧ (e.req.kind = .write → ∀ x ∈ e.maskedBeats, ∀ j, j < 32 → x.2.2.enables.getLsbD j = true → x.2.1 + j ≠ k)

/-- DOWNSTREAM_ANSWER for the entry at the head: it is answered upstream with its tag and, for a read, memory's bytes, and after it every
READY entry that follows, oldest first; nothing else changes (R125, R126). -/
def Obligations.DownstreamAnswer : Prop :=
  ∀ (s : State) (e : TransitEntry) (sent : Request) (rest : List TransitEntry) (flight : List InFlight) (data : List Byte), s.quiet = true →
    s.tru.flight = .transit sent :: flight → s.tru.transit = e :: rest → e.state = .forwarded →
    data.length = (if e.req.kind = .read then 32 * e.req.length else 0) →
    exec (.downstreamAnswer data) s = .next
      { s with
        lcu.ltrig := false
        tru.flight := flight
        tru.transit := rest.dropWhile fun x => decide (x.state = .ready)
        tru.answers := { tag := e.req.tag, data := data }
          :: (rest.takeWhile fun x => decide (x.state = .ready)).map fun x => { tag := x.req.tag, data := x.answer } }

/-- OWN_REQUEST_PLACED: the request that has waited longest takes the place that is free; nothing else changes (R132). -/
def Obligations.WaitingRequestIsPlaced : Prop :=
  ∀ (s : State) (r : OwnRequest) (rest : List OwnRequest), s.porstLow = false → s.closed = true → s.expiryOwed = false →
    s.tru.waiting = r :: rest → s.tru.own.length < 32 →
    exec .ownRequestPlaced s = .next
      { s with lcu.ltrig := false, tru.answers := [], tru.own := s.tru.own ++ [r], tru.waiting := rest }

/-! ### Record output -/

/-- OWN_READ_RETURN of a descriptor with no operation pending: a good one is loaded, with remaining its capacity, and the write of the head
record, if there is one, goes to its buffer address; a bad one puts the channel in FAULT and raises CH_FAULT (R142, R143). -/
def Obligations.DescriptorReturns : Prop :=
  ∀ (s : State) (r : OwnRequest) (flight : List InFlight) (data : List Byte) (ch : Fin 3), s.quiet = true →
    s.tru.flight = .own r :: flight → r.purpose = .descriptor ch → r.kind = .read → data.length = 32 * r.beats →
    (s.channel ch).state = .active → (s.channel ch).activity = .fetching → (s.channel ch).pendingOp = .none →
    let c := s.channel ch
    let half := 16 * (c.index % 2)
    let buffer := field data half 5
    let capacity := field data (half + 8) 2
    let bad := capacity = 0 ∨ buffer % 32 ≠ 0 ∨ 2 ^ 40 < buffer + capacity * (32 * recordBeats ch)
    ∃ t, exec (.ownReadReturn data) s = .next t ∧ t.tru.flight = flight
      ∧ (bad → t.channel ch = { c with state := .fault, entry := none, activity := .none } ∧ t.csu.causes.getLsbD 11 = true)
      ∧ (¬bad → ∃ d : Descriptor, d.buffer = buffer ∧ d.capacity = capacity
          ∧ d.flag = (byteAt data (half + 10)).testBit 0 ∧ d.eol = (byteAt data (half + 10)).testBit 1
          ∧ t.channel ch = { c with
              entry := some d, remaining := capacity, activity := if c.queue = [] then .none else .writing }
          ∧ t.csu.causes = s.csu.causes
          ∧ ∀ q, c.queue.head? = some q →
              { purpose := .record ch, kind := .write, addr := buffer, beats := recordBeats ch, data := q.bytes }
                ∈ t.tru.own ++ t.tru.waiting)
      ∧ (∀ k, k ≠ ch → t.channel k = s.channel k)
      ∧ t.lcu = { s.lcu with ltrig := false } ∧ t.fdu = s.fdu ∧ t.ppl = s.ppl ∧ t.cdu = s.cdu ∧ t.sac = s.sac

/-- OWN_WRITE_COMPLETION of a record write with nothing pending: the record leaves the queue as written. With room left the next record
is written. At the end of the entry FLAG raises CH_FLAG, and the channel holds if the index is the stop index, raising CH_STOP; else
without EOL, and below index 255, it fetches the next descriptor; else it raises CH_EOL and restarts at index 0, with the queued table if a
restart is queued, or ends (R140, R143 to R145). -/
def Obligations.RecordIsWritten : Prop :=
  ∀ (s : State) (r : OwnRequest) (flight : List InFlight) (ch : Fin 3) (q : Record) (rest : List Record) (d : Descriptor),
    s.quiet = true → s.tru.flight = .own r :: flight → r.purpose = .record ch → r.kind = .write →
    (s.channel ch).state = .active → (s.channel ch).activity = .writing → (s.channel ch).pendingOp = .none →
    (s.channel ch).entry = some d → (s.channel ch).queue = q :: rest →
    let c := s.channel ch
    let fetches := fun (t : State) (addr : Nat) =>
      { purpose := .descriptor ch, kind := .read, addr := addr, beats := 1, data := [] } ∈ t.tru.own ++ t.tru.waiting
    ∃ t, exec .ownWriteCompletion s = .next t ∧ t.tru.flight = flight
      ∧ (2 ≤ c.remaining →
          t.channel ch = { c with
            queue := rest, written := c.written + 1, remaining := c.remaining - 1
            activity := if rest = [] then .none else .writing }
          ∧ t.csu.causes = s.csu.causes)
      ∧ (c.remaining = 1 → c.index = (s.stopWord ch).toNat % 256 →
          t.channel ch = { c with queue := rest, written := c.written + 1, remaining := 0, activity := .none, state := .held }
          ∧ t.csu.causes.getLsbD (5 + ch.val) = true
          ∧ (d.flag = true → t.csu.causes.getLsbD (2 + ch.val) = true))
      ∧ (c.remaining = 1 → c.index ≠ (s.stopWord ch).toNat % 256 → d.eol = false → c.index ≠ 255 →
          t.channel ch = { c with
            queue := rest, written := c.written + 1, remaining := 0, activity := .fetching, entry := none, index := c.index + 1 }
          ∧ (d.flag = true → t.csu.causes.getLsbD (2 + ch.val) = true)
          ∧ fetches t (c.table + 32 * ((c.index + 1) / 2)))
      ∧ (c.remaining = 1 → c.index ≠ (s.stopWord ch).toNat % 256 → d.eol = true ∨ c.index = 255 →
          t.csu.causes.getLsbD (8 + ch.val) = true
          ∧ (d.flag = true → t.csu.causes.getLsbD (2 + ch.val) = true)
          ∧ (∀ table auto, c.restart = some (table, auto) →
              t.channel ch = { c with
                queue := rest, written := c.written + 1, remaining := 0, activity := .fetching, entry := none, index := 0
                table := table, autoRestart := auto, restart := none }
              ∧ fetches t table)
          ∧ (c.restart = none → c.autoRestart = true →
              t.channel ch = { c with
                queue := rest, written := c.written + 1, remaining := 0, activity := .fetching, entry := none, index := 0 }
              ∧ fetches t c.table)
          ∧ (c.restart = none → c.autoRestart = false →
              t.channel ch = { c with queue := rest, written := c.written + 1, remaining := 0, activity := .none, state := .ended }))
      ∧ (∀ k, k ≠ ch → t.channel k = s.channel k)
      ∧ t.lcu = { s.lcu with ltrig := false } ∧ t.fdu = s.fdu ∧ t.ppl = s.ppl ∧ t.cdu = s.cdu ∧ t.sac = s.sac

/-- STOP_WORD_WRITE: the shadow takes the enabled bytes. Only a HELD channel whose new stop index differs from its current index acts: without
EOL, and below index 255, it fetches the next descriptor; else it raises CH_EOL and restarts at index 0, with the queued table if a restart
is queued, or ends (R131, R145, R146). -/
def Obligations.StopWordMovesAHeldChannel : Prop :=
  ∀ (s : State) (ch : Fin 3) (word : Word) (enables : BitVec 4), s.quiet = true → enables ≠ 0 →
    let c := s.channel ch
    let now := mergeWord (s.stopWord ch) word enables
    let fetches := fun (t : State) (addr : Nat) =>
      { purpose := .descriptor ch, kind := .read, addr := addr, beats := 1, data := [] } ∈ t.tru.own ++ t.tru.waiting
    let kept := fun t : State =>
      t.tru.stopShadow = s.tru.stopShadow.set ch now ∧ (∀ k, k ≠ ch → t.channel k = s.channel k)
        ∧ t.lcu = { s.lcu with ltrig := false } ∧ t.fdu = s.fdu ∧ t.ppl = s.ppl ∧ t.cdu = s.cdu ∧ t.sac = s.sac
    (c.state ≠ .held ∨ now.toNat % 256 = c.index →
      exec (.stopWordWrite ch word enables) s = .next
        { s with lcu.ltrig := false, tru.answers := [], tru.stopShadow := s.tru.stopShadow.set ch now })
    ∧ (c.state = .held → now.toNat % 256 ≠ c.index → c.eolSet = false → c.index ≠ 255 → c.pendingOp = .none →
      ∃ t, exec (.stopWordWrite ch word enables) s = .next t ∧ kept t
        ∧ t.channel ch = { c with state := .active, index := c.index + 1, activity := .fetching, entry := none, remaining := 0 }
        ∧ fetches t (c.table + 32 * ((c.index + 1) / 2)) ∧ t.csu = s.csu)
    ∧ (c.state = .held → now.toNat % 256 ≠ c.index → c.eolSet = true ∨ c.index = 255 → c.pendingOp = .none →
      ∃ t, exec (.stopWordWrite ch word enables) s = .next t ∧ kept t ∧ t.csu.causes.getLsbD (8 + ch.val) = true
        ∧ (∀ table auto, c.restart = some (table, auto) →
          t.channel ch = { c with
            state := .active, index := 0, activity := .fetching, entry := none, remaining := 0, table := table, autoRestart := auto
            restart := none }
          ∧ fetches t table)
        ∧ (c.restart = none → c.autoRestart = true →
          t.channel ch = { c with state := .active, index := 0, activity := .fetching, entry := none, remaining := 0 }
          ∧ fetches t c.table)
        ∧ (c.restart = none → c.autoRestart = false → t.channel ch = { c with state := .ended }))

/-- CHANNEL START: BAD_ARG for a channel above 2, with a free result value (log entry 3), or a table that is not 32-byte aligned or ends
beyond 2^40; else a stopped, ended or faulted channel is ACTIVE at index 0 and fetches descriptor 0, an ACTIVE or HELD one queues the
restart, and a PAUSED one refuses (R141, R161). That the result value is the channel
state's code, taken after the command has acted, is the model's choice (log entry 19). -/
def Obligations.ChannelStart : Prop :=
  ∀ (s : State) (n : Fin 8), s.readyFor n → (s.slot n).command.code = 0x30 → (s.slot n).command.arg1.toNat / 256 % 256 = 1 →
    let k := (s.slot n).command
    let table := k.arg2.toNat + 2 ^ 32 * (k.arg3.toNat % 256)
    let bad := table % 32 ≠ 0 ∨ 2 ^ 40 < table + 4096
    (3 ≤ k.arg1.toNat % 256 →
      ∃ t, exec .channelStart s = .next t ∧ s.CompletesAs t n .badArg (Config.freeResult s.freeCount) ∧ t.freeCount = s.freeCount + 1
        ∧ t.rou = s.rou)
    ∧ ∀ ch : Fin 3, k.arg1.toNat % 256 = ch.val →
      let c := s.channel ch
      ∃ t, exec .channelStart s = .next t
        ∧ (bad → s.CompletesAs t n .badArg (BitVec.ofNat 32 c.state.code) ∧ t.rou = s.rou)
        ∧ (¬bad → c.state = .stopped ∨ c.state = .ended ∨ c.state = .fault →
            s.CompletesAs t n .ok 1
            ∧ t.channel ch = { c with
                table := table, autoRestart := k.arg1.getLsbD 16, restart := none, index := 0, state := .active
                activity := .fetching, entry := none, remaining := 0 }
            ∧ { purpose := .descriptor ch, kind := .read, addr := table, beats := 1, data := [] } ∈ t.tru.own ++ t.tru.waiting)
        ∧ (¬bad → c.state = .active ∨ c.state = .held →
            s.CompletesAs t n .ok (BitVec.ofNat 32 c.state.code)
            ∧ t.channel ch = { c with restart := some (table, k.arg1.getLsbD 16) })
        ∧ (¬bad → c.state = .paused → s.CompletesAs t n .badState 3 ∧ t.rou = s.rou)
        ∧ (∀ j, j ≠ ch → t.channel j = s.channel j)
        ∧ t.lcu = { s.lcu with ltrig := false } ∧ t.fdu = s.fdu ∧ t.ppl = s.ppl ∧ t.cdu = s.cdu ∧ t.sac = s.sac

/-- CHANNEL PAUSE, RESUME and TERMINATE on a channel that waits to place nothing: PAUSE halts an ACTIVE channel at once or after its request
in flight; RESUME makes a PAUSED one ACTIVE, fetching if it has no entry; TERMINATE stops it and discards its records, at once or after
its request in flight; BAD_STATE else. At the completion of the request in flight a pending PAUSE takes effect after the request's own rule,
and keeps a fetch from beginning; HELD, ENDED and FAULT withdraw it; a pending TERMINATE lets a written record count as written and nothing
else of that rule act (R145, R147, R148, R161). That the result value is the channel state's code, taken after the command has acted, is
the model's choice (log entry 19). -/
def Obligations.ChannelHalts : Prop :=
  (∀ (s : State) (n : Fin 8) (ch : Fin 3), s.readyFor n → (s.slot n).command.code = 0x30 →
    (s.slot n).command.arg1.toNat % 256 = ch.val →
    (∀ r ∈ s.tru.waiting, r.purpose ≠ .descriptor ch ∧ r.purpose ≠ .record ch) →
    let op := (s.slot n).command.arg1.toNat / 256 % 256
    let c := s.channel ch
    (op = 2 → ∃ t, exec .channelPause s = .next t
      ∧ (c.state = .active → c.activity = .none → s.CompletesAs t n .ok 3 ∧ t.channel ch = { c with state := .paused })
      ∧ (c.state = .active → c.activity ≠ .none → s.RunsIn t n (.channelOp ch) ∧ t.channel ch = { c with pendingOp := .pause })
      ∧ (c.state ≠ .active → s.CompletesAs t n .badState (BitVec.ofNat 32 c.state.code) ∧ t.channel ch = c)
      ∧ ∀ k, k ≠ ch → t.channel k = s.channel k)
    ∧ (op = 3 → ∃ t, exec .channelResume s = .next t
      ∧ (c.state = .paused → s.CompletesAs t n .ok 1 ∧ (t.channel ch).state = .active ∧ (t.channel ch).queue = c.queue
          ∧ (t.channel ch).index = c.index
          ∧ (c.entry = none → (t.channel ch).activity = .fetching))
      ∧ (c.state ≠ .paused → s.CompletesAs t n .badState (BitVec.ofNat 32 c.state.code) ∧ t.channel ch = c)
      ∧ ∀ k, k ≠ ch → t.channel k = s.channel k)
    ∧ (op = 4 → ∃ t, exec .channelTerminate s = .next t
      ∧ (c.activity = .none → s.CompletesAs t n .ok 0
          ∧ t.channel ch = { c with
              queue := [], dropped := c.dropped + BitVec.ofNat 32 c.queue.length, state := .stopped, index := 0, entry := none
              remaining := 0, pendingOp := .none, restart := none }
          ∧ t.sac.counters.recordsDropped[ch] = satAdd max32 s.sac.counters.recordsDropped[ch] c.queue.length)
      ∧ (c.activity ≠ .none → s.RunsIn t n (.channelOp ch) ∧ t.channel ch = { c with pendingOp := .terminate })
      ∧ ∀ k, k ≠ ch → t.channel k = s.channel k))
  ∧ ∀ (s : State) (n : Fin 8) (r : OwnRequest) (flight : List InFlight) (ch : Fin 3), s.quiet = true →
    s.tru.flight = .own r :: flight → s.csu.running = [{ slot := n, phase := .channelOp ch }] → (s.channel ch).state = .active →
    let c := s.channel ch
    let stopped := fun (queue : List Record) (written : Word) =>
      { c with
        queue := [], written := written, dropped := c.dropped + BitVec.ofNat 32 queue.length, state := .stopped, index := 0
        entry := none, remaining := 0, activity := .none, pendingOp := .none, restart := none }
    let terminated := fun (t : State) (queue : List Record) (written : Word) =>
      s.EndsAs t n .ok 0 ∧ t.channel ch = stopped queue written ∧ t.csu.causes = s.csu.causes ||| 1#32
        ∧ t.sac.counters.recordsDropped[ch] = satAdd max32 s.sac.counters.recordsDropped[ch] queue.length
    (∀ (q : Record) (rest : List Record) (d : Descriptor), r.purpose = .record ch → r.kind = .write → c.activity = .writing →
      c.queue = q :: rest → c.entry = some d →
      let written := { c with queue := rest, written := c.written + 1, remaining := c.remaining - 1, activity := .none, pendingOp := .none }
      let atStop := c.index = (s.stopWord ch).toNat % 256
      ∃ t, exec .ownWriteCompletion s = .next t ∧ t.tru.flight = flight ∧ (∀ k, k ≠ ch → t.channel k = s.channel k)
        ∧ (c.pendingOp = .terminate → terminated t rest (c.written + 1))
        ∧ (c.pendingOp = .pause → 2 ≤ c.remaining → s.EndsAs t n .ok 3 ∧ t.channel ch = { written with state := .paused })
        ∧ (c.pendingOp = .pause → c.remaining = 1 → (d.flag = true → t.csu.causes.getLsbD (2 + ch.val) = true)
          ∧ (atStop → s.EndsAs t n .ok 2 ∧ t.channel ch = { written with state := .held } ∧ t.csu.causes.getLsbD (5 + ch.val) = true)
          ∧ (¬atStop → d.eol = false → c.index ≠ 255 →
              s.EndsAs t n .ok 3 ∧ t.channel ch = { written with state := .paused, entry := none, index := c.index + 1 })
          ∧ (¬atStop → d.eol = true ∨ c.index = 255 → t.csu.causes.getLsbD (8 + ch.val) = true
            ∧ (∀ table auto, c.restart = some (table, auto) → s.EndsAs t n .ok 3
                ∧ t.channel ch = { written with
                      state := .paused, entry := none, index := 0, table := table, autoRestart := auto, restart := none })
            ∧ (c.restart = none → c.autoRestart = true →
                s.EndsAs t n .ok 3 ∧ t.channel ch = { written with state := .paused, entry := none, index := 0 })
            ∧ (c.restart = none → c.autoRestart = false →
                s.EndsAs t n .ok 4 ∧ t.channel ch = { written with state := .ended }))))
    ∧ ∀ beat : List Byte, r.purpose = .descriptor ch → r.kind = .read → r.beats = 1 → beat.length = 32 → c.activity = .fetching →
      let o := 16 * (c.index % 2)
      let d : Descriptor :=
        { buffer := field beat o 5, capacity := field beat (o + 8) 2, flag := (byteAt beat (o + 10)).testBit 0
          eol := (byteAt beat (o + 10)).testBit 1 }
      let bad := d.capacity = 0 ∨ d.buffer % 32 ≠ 0 ∨ 2 ^ 40 < d.buffer + d.capacity * (32 * recordBeats ch)
      ∃ t, exec (.ownReadReturn beat) s = .next t ∧ t.tru.flight = flight ∧ (∀ k, k ≠ ch → t.channel k = s.channel k)
        ∧ (c.pendingOp = .terminate → terminated t c.queue c.written)
        ∧ (c.pendingOp = .pause → bad → s.EndsAs t n .ok 5 ∧ t.csu.causes.getLsbD 11 = true
            ∧ t.channel ch = { c with state := .fault, entry := none, activity := .none, pendingOp := .none })
        ∧ (c.pendingOp = .pause → ¬bad → s.EndsAs t n .ok 3
            ∧ t.channel ch = { c with
                state := .paused, entry := some d, remaining := d.capacity, activity := .none, pendingOp := .none })

/-! ### Shifts -/

/-- MILLISECOND_TICK with no expiry raised: a RUNNING timer steps at each tick, or at each thousandth in the 1 s mode; the step that would
bring the count to length keeps it and raises the expiry, which is taken next (log entry 4); a STOPPED timer keeps its counts (R152). -/
def Obligations.TimerSteps : Prop :=
  ∀ s : State, s.quiet = true → s.sac.expired = false →
    let quieted : State := { s with lcu.ltrig := false, tru.answers := [] }
    let last := s.sac.params.length ≤ s.sac.stepCount + 1
    (s.sac.running = false → exec .millisecondTick s = .next quieted)
    ∧ (s.sac.running = true → s.sac.params.coarse = true → s.sac.tickCount + 1 < 1000 →
        exec .millisecondTick s = .next { quieted with sac.prescaleCount := 0, sac.tickCount := s.sac.tickCount + 1 })
    ∧ (s.sac.running = true → s.sac.params.coarse = false ∨ 1000 ≤ s.sac.tickCount + 1 →
        let tick := if s.sac.params.coarse then 0 else s.sac.tickCount
        (last → exec .millisecondTick s = .next
          { quieted with sac.prescaleCount := 0, sac.tickCount := tick, sac.expired := true })
        ∧ (¬last → exec .millisecondTick s = .next
          { quieted with sac.prescaleCount := 0, sac.tickCount := tick, sac.stepCount := s.sac.stepCount + 1 }))

/-- SHIFT_TIMER_EXPIRY and END_SHIFT close the shift: with room in the REPORT queue the report of the open shift is appended, every counter
is 0, the number moves on, the new shift starts at the counter with the close's reason, and SHIFT_CLOSED is set. The expiry restarts the
timer in REPEAT mode and stops it at step count 0 in SINGLE; END_SHIFT restarts it if enabled, and returns the number closed (R153, R155,
R156). -/
def Obligations.ShiftCloses : Prop :=
  let closes := fun (s t : State) (reason : ShiftReason) =>
    t.sac.counters = ShiftCounters.zero ∧ t.sac.number = (if s.sac.number = 0xFFFFFFFF then 1 else s.sac.number + 1)
    ∧ t.sac.startPos = s.lcu.counter ∧ t.sac.openReason = reason ∧ t.sac.params = s.sac.params
    ∧ (t.channel 2).queue = (s.channel 2).queue
        ++ [{ seq := (s.channel 2).nextSeq
              body := .report
                { number := s.sac.number, openReason := s.sac.openReason, closeReason := reason, startPos := s.sac.startPos
                  endPos := s.lcu.counter, coarse := s.sac.params.coarse, stepCount := s.sac.stepCount
                  counters := s.sac.counters } }]
    ∧ t.csu.causes.getLsbD 1 = true
    ∧ t.lcu = { s.lcu with ltrig := false } ∧ t.fdu = s.fdu ∧ t.ppl = s.ppl ∧ t.cdu = s.cdu
  let restarted := fun t : State =>
    t.sac.running = true ∧ t.sac.prescaleCount = 0 ∧ t.sac.tickCount = 0 ∧ t.sac.stepCount = 0 ∧ t.sac.expired = false
  (∀ s : State, s.quiet = true → s.sac.expired = true → (s.channel 2).queue.length < 4 →
    ∃ t, exec .shiftTimerExpiry s = .next t ∧ closes s t .timer
      ∧ (s.sac.params.repeats = true → restarted t)
      ∧ (s.sac.params.repeats = false →
          t.sac.running = false ∧ t.sac.stepCount = 0 ∧ t.sac.tickCount = s.sac.tickCount ∧ t.sac.expired = false))
  ∧ ∀ (s : State) (n : Fin 8), s.readyFor n → (s.slot n).command.code = 0x20 → (s.channel 2).queue.length < 4 →
    ∃ t, exec .endShift s = .next t ∧ s.CompletesAs t n .ok s.sac.number ∧ closes s t .command
      ∧ (s.sac.params.enabled = true → restarted t)
      ∧ (s.sac.params.enabled = false → t.sac.running = s.sac.running ∧ t.sac.stepCount = s.sac.stepCount)

/-! ### Commands and events -/

/-- CONTROL_WINDOW_WRITE: the copy takes the enabled bytes of words 0 to 5; a written go word with a code other than 0 queues the command, its words 0 to 5, of a
FREE slot and sets the overrun flag of any other; nothing else changes (R158). -/
def Obligations.SlotWriteQueues : Prop :=
  (∀ (old new : Word) (enables : BitVec 4) (i : Nat), i < 32 →
    (mergeWord old new enables).getLsbD i = if enables.getLsbD (i / 8) then new.getLsbD i else old.getLsbD i)
  ∧ ∀ (s : State) (n : Fin 8) (data : List Byte) (enables : BitVec 32), s.quiet = true →
    let copy : Vector Word 6 := Vector.ofFn fun k : Fin 6 =>
      mergeWord (s.slot n).copy[k] (BitVec.ofNat 32 (field data (4 * k.val) 4)) (enables.extractLsb' (4 * k.val) 4)
    let written := enables.getLsbD 0 = true ∧ copy[0].toNat % 256 ≠ 0
    let into := fun (x : Slot) (fifo : List (Fin 8)) =>
      exec (.controlWindowWrite n data enables) s = .next
        { s with lcu.ltrig := false, tru.answers := [], csu.slots := s.csu.slots.set n x, csu.fifo := fifo }
    (¬written → into { s.slot n with copy := copy } s.csu.fifo)
    ∧ (written → (s.slot n).state = .free →
        into
          { copy := copy, state := .queued, overrun := (s.slot n).overrun
            command :=
              { code := copy[0].setWidth 8, sequence := copy[0].extractLsb' 8 8, arg1 := copy[1], arg2 := copy[2], arg3 := copy[3]
                arg4 := copy[4], arg5 := copy[5] } }
          (s.csu.fifo ++ [n]))
    ∧ (written → (s.slot n).state ≠ .free → into { s.slot n with copy := copy, overrun := true } s.csu.fifo)

/-- ACKNOWLEDGE_WRITE clears exactly the causes whose bits the written bytes carry, and a change asks for a status write; EVENT_ENABLE_WRITE
changes the enable shadow alone; IRQ is asserted while some cause is set whose bit is enabled (R131, R164, R165). -/
def Obligations.AcknowledgeAndEnable : Prop :=
  ∀ (s : State) (word : Word) (enables : BitVec 4), s.quiet = true →
    (∃ t, exec (.acknowledgeWrite word enables) s = .next t
      ∧ (∀ i, i < 32 →
          t.csu.causes.getLsbD i = (s.csu.causes.getLsbD i && !(word.getLsbD i && enables.getLsbD (i / 8))))
      ∧ t.tru.ackShadow = mergeWord s.tru.ackShadow word enables
      ∧ (t.csu.causes ≠ s.csu.causes → t.csu.statusWaiting = true)
      ∧ t.csu.slots = s.csu.slots ∧ t.csu.fifo = s.csu.fifo ∧ t.csu.running = s.csu.running
      ∧ t.tru.enableShadow = s.tru.enableShadow ∧ t.tru.flight = s.tru.flight
      ∧ t.lcu = { s.lcu with ltrig := false } ∧ t.fdu = s.fdu ∧ t.ppl = s.ppl ∧ t.cdu = s.cdu ∧ t.sac = s.sac ∧ t.rou = s.rou)
    ∧ exec (.eventEnableWrite word enables) s = .next
        { s with lcu.ltrig := false, tru.answers := [], tru.enableShadow := mergeWord s.tru.enableShadow word enables }
    ∧ (s.irq = true ↔ ∃ i, i < 32 ∧ s.csu.causes.getLsbD i = true ∧ s.tru.enableShadow.getLsbD i = true)

/-- START is taken in OFF, RELEARN in RUN, STOP in LEARN and RUN, where with lines queued it runs on, STOPPING; elsewhere each is refused with
BAD_STATE and changes nothing (R13, R14, R31, R161, R162). -/
def Obligations.StartStopRelearn : Prop :=
  ∀ (s : State) (n : Fin 8), s.readyFor n →
    let kept := fun t : State => t.ppl = s.ppl ∧ t.cdu = s.cdu ∧ t.sac = s.sac ∧ t.rou = s.rou
    let refused := fun t : State =>
      s.CompletesAs t n .badState 0 ∧ t.lcu = { s.lcu with ltrig := false } ∧ t.fdu = s.fdu ∧ t.csu.inspection = s.csu.inspection
    let learns := fun t : State =>
      s.CompletesAs t n .ok 0 ∧ t.csu.inspection = .learn
        ∧ t.fdu = { s.fdu with mode := .learn, learnCount := s.fdu.detect.learnLines }
    ((s.slot n).command.code = 0x01 → ∃ t, exec .start s = .next t ∧ kept t
      ∧ (s.csu.inspection ≠ .off → refused t)
      ∧ (s.csu.inspection = .off → learns t
          ∧ t.lcu = { s.lcu with
              ltrig := false, divider := s.fdu.detect.ldiv, lastStamp := s.lcu.counter, assembly := none, resumeArmed := true }))
    ∧ ((s.slot n).command.code = 0x03 → ∃ t, exec .relearn s = .next t ∧ kept t
      ∧ (s.csu.inspection ≠ .run → refused t)
      ∧ (s.csu.inspection = .run → learns t ∧ t.lcu = { s.lcu with ltrig := false }))
    ∧ ((s.slot n).command.code = 0x02 → ∃ t, exec .stop s = .next t
      ∧ (s.csu.inspection = .off ∨ s.csu.inspection = .stopping → refused t ∧ kept t)
      ∧ (s.csu.inspection = .learn ∨ s.csu.inspection = .run →
          t.lcu.fifo = [] ∧ t.lcu.assembly = none ∧ t.lcu.lineQueue = s.lcu.lineQueue ∧ t.lcu.counter = s.lcu.counter
          ∧ (s.lcu.lineQueue ≠ [] → s.RunsIn t n .stopping ∧ t.csu.inspection = .stopping ∧ t.fdu = s.fdu ∧ kept t)
          ∧ (s.lcu.lineQueue = [] → s.CompletesAs t n .ok 0 ∧ t.csu.inspection = .off ∧ t.fdu.blobs = [])))

/-- LOAD_TABLES, LOAD_REFERENCE and SAVE_REFERENCE: BAD_ARG for an address that is not 32-byte aligned or whose structure ends beyond 2^40;
else LOAD_TABLES reads the directory's header, LOAD_REFERENCE places its 32 reads, and SAVE_REFERENCE, with no line in analysis, its 32
writes of the reference (R37, R39, R163, R169). That LOAD_REFERENCE places all its 32 reads at the event at which it begins is the model's
choice (log entry 11): R37 gives their number, size and order, not their moments. -/
def Obligations.LoadsAndSaves : Prop :=
  ∀ (s : State) (n : Fin 8), s.readyFor n →
    let k := (s.slot n).command
    let addr := k.arg1.toNat + 2 ^ 32 * (k.arg2.toNat % 256)
    let bad := fun size : Nat => addr % 32 ≠ 0 ∨ 2 ^ 40 < addr + size
    let kept := fun t : State => t.lcu = { s.lcu with ltrig := false } ∧ t.ppl = s.ppl ∧ t.cdu = s.cdu ∧ t.sac = s.sac ∧ t.rou = s.rou
    let placed := fun (t : State) (l : List OwnRequest) => t.tru.own ++ t.tru.waiting = s.tru.own ++ s.tru.waiting ++ l
    (k.code = 0x10 → ∃ t, exec .loadTables s = .next t ∧ kept t ∧ t.fdu = s.fdu
      ∧ (bad 160 → s.CompletesAs t n .badArg 0)
      ∧ (¬bad 160 → s.RunsIn t n (.dirHeader addr)
          ∧ placed t [{ purpose := .tableRead, kind := .read, addr := addr, beats := 1, data := [] }]))
    ∧ (k.code = 0x11 → ∃ t, exec .loadReference s = .next t ∧ kept t ∧ t.fdu = s.fdu
      ∧ (bad 16384 → s.CompletesAs t n .badArg 0)
      ∧ (¬bad 16384 → s.RunsIn t n (.referenceRead [])
          ∧ placed t ((List.range 32).map fun i =>
              { purpose := .referenceRead, kind := .read, addr := addr + 512 * i, beats := 16, data := [] })))
    ∧ (k.code = 0x12 → ∃ t, exec .saveReference s = .next t ∧ kept t
      ∧ (bad 16384 → s.CompletesAs t n .badArg 0 ∧ t.fdu = s.fdu)
      ∧ (¬bad 16384 → s.RunsIn t n (.saving 0)
          ∧ (s.fdu.analysis ≠ none → placed t [] ∧ t.fdu = { s.fdu with snapshot := some addr })
          ∧ (s.fdu.analysis = none → t.fdu = s.fdu
              ∧ placed t ((List.range 32).map fun i =>
                  { purpose := .snapshot, kind := .write, addr := addr + 512 * i, beats := 16
                    data := ((referenceBytes s.fdu.reference).drop (512 * i)).take 512 }))))

/-- OWN_READ_RETURN of the last read of a table of a load. Refused or not, the next table of the directory is read. With the last, any
refusal ends the load with TABLE_INVALID and the index of the first refused table, staging nothing; else each table of the load is in effect
at once where R163's table says so, or stays staged, and the tables of other kinds stay; the load completes with OK and the number of its
tables if all are in effect, else it waits. A LINK table in effect leaves the miss tests by the old miss_tol until the next counter event.
A table is refused
structurally, or by the rule of its kind, exactly where the rules say, and else takes the corrected values (R33, R34, R36, R57, R64, R65,
R98, R99, R121, R122, R136, R137, R154, R163, R168 to R170). Not the spec's but the model's: that all reads of the next table are placed at
the return of the last read of the table before it (DESIGN CHOICE, log entry 11), that a load with a refused table still reads the tables
behind it (DEDUCED, log entry 11), and that min_area is read as three bytes of its four-byte place (DEDUCED, log entry 24). -/
def Obligations.OneTableIsLoaded : Prop :=
  (∀ (s : State) (n : Fin 8) (r : OwnRequest) (flight : List InFlight) (data bytes : List Byte) (i : Nat) (e : DirEntry)
      (rest : List DirEntry) (good : List TableBody) (refused : Option Nat),
    s.quiet = true → s.tru.flight = .own r :: flight → r.purpose = .tableRead → r.kind = .read → data.length = 32 * r.beats →
    s.csu.running = [{ slot := n, phase := .tables i (e :: rest) bytes good refused }] →
    e.kind.length ≤ bytes.length + data.length → s.nothingStaged = true → s.cdu.newMask = none →
    let table := readTable s.tru.controlBase e.kind (bytes ++ data)
    let atOnce := fun b : TableBody =>
      match b with
      | .transit _ | .shift _ => True
      | .detect _ | .column _ | .cls _ => s.csu.inspection = .off
      | .grade _ | .product _ => s.ppl.piece = none
      | .link _ => s.cdu.engine.between = true
    let code : TableBody → Nat := fun b =>
      match b with
      | .transit _ => 1
      | .detect _ => 2
      | .column _ => 3
      | .cls _ => 4
      | .grade _ => 5
      | .product _ => 6
      | .link _ => 7
      | .shift _ => 8
    ∃ t, exec (.ownReadReturn data) s = .next t ∧ t.tru.flight = flight ∧ t.csu.inspection = s.csu.inspection
      ∧ (∀ e' more, rest = e' :: more →
          t.csu.running = [{
            slot := n
            phase := .tables (i + 1) rest [] (good ++ table.toList)
              (if table = none ∧ refused = none then some i else refused) }]
          ∧ (∀ j, 16 * j < e'.kind.beats →
              { purpose := .tableRead, kind := .read, addr := e'.addr + 512 * j, beats := min 16 (e'.kind.beats - 16 * j), data := [] }
                ∈ t.tru.own ++ t.tru.waiting)
          ∧ t.slot n = s.slot n ∧ t.csu.causes = s.csu.causes)
      ∧ (rest = [] → table = none ∨ refused ≠ none → s.EndsAs t n .tableInvalid (BitVec.ofNat 32 (refused.getD i)))
      ∧ (rest ≠ [] ∨ table = none ∨ refused ≠ none →
          t.nothingStaged = true ∧ t.fdu = s.fdu ∧ t.ppl = s.ppl ∧ t.cdu = s.cdu ∧ t.sac = s.sac ∧ t.tru.params = s.tru.params)
      ∧ (rest = [] → refused = none → ∀ b, table = some b → ((good ++ [b]).map code).Nodup →
        let all := good ++ [b]
        ((∀ b ∈ all, atOnce b) → s.EndsAs t n .ok (BitVec.ofNat 32 all.length))
        ∧ ((∃ b ∈ all, ¬atOnce b) →
            t.csu.running = [{ slot := n, phase := .tablesStaged all.length }] ∧ t.slot n = s.slot n ∧ t.csu.causes = s.csu.causes)
        ∧ (∀ x, .transit x ∈ all → t.tru.params = x ∧ t.csu.refreshCount = 0)
        ∧ ((∀ x, .transit x ∉ all) → t.tru.params = s.tru.params ∧ t.csu.refreshCount = s.csu.refreshCount)
        ∧ (∀ x, .shift x ∈ all → t.sac.params = x ∧ t.sac.running = x.enabled
            ∧ t.sac.counters = s.sac.counters ∧ t.sac.number = s.sac.number
            ∧ (x.enabled = true → t.sac.prescaleCount = 0 ∧ t.sac.tickCount = 0 ∧ t.sac.stepCount = 0))
        ∧ ((∀ x, .shift x ∉ all) → t.sac = s.sac)
        ∧ (∀ x, .detect x ∈ all →
            (s.csu.inspection = .off → t.fdu.detect = x) ∧ (s.csu.inspection ≠ .off → t.fdu.detect = s.fdu.detect ∧ t.fdu.stagedDetect = some x))
        ∧ ((∀ x, .detect x ∉ all) → t.fdu.detect = s.fdu.detect ∧ t.fdu.stagedDetect = none)
        ∧ (∀ x, .column x ∈ all →
            (s.csu.inspection = .off → t.fdu.columns = x) ∧ (s.csu.inspection ≠ .off → t.fdu.columns = s.fdu.columns ∧ t.fdu.stagedColumns = some x))
        ∧ ((∀ x, .column x ∉ all) → t.fdu.columns = s.fdu.columns ∧ t.fdu.stagedColumns = none)
        ∧ (∀ x, .cls x ∈ all →
            (s.csu.inspection = .off → t.fdu.classes = x) ∧ (s.csu.inspection ≠ .off → t.fdu.classes = s.fdu.classes ∧ t.fdu.stagedClasses = some x))
        ∧ ((∀ x, .cls x ∉ all) → t.fdu.classes = s.fdu.classes ∧ t.fdu.stagedClasses = none)
        ∧ (∀ x, .grade x ∈ all →
            (s.ppl.piece = none → t.ppl.grade = x) ∧ (s.ppl.piece ≠ none → t.ppl.grade = s.ppl.grade ∧ t.ppl.stagedGrade = some x))
        ∧ ((∀ x, .grade x ∉ all) → t.ppl.grade = s.ppl.grade ∧ t.ppl.stagedGrade = none)
        ∧ (∀ x, .product x ∈ all →
            (s.ppl.piece = none → t.ppl.product = x) ∧ (s.ppl.piece ≠ none → t.ppl.product = s.ppl.product ∧ t.ppl.stagedProduct = some x))
        ∧ ((∀ x, .product x ∉ all) → t.ppl.product = s.ppl.product ∧ t.ppl.stagedProduct = none)
        ∧ (∀ x, .link x ∈ all →
            (s.cdu.engine.between = true → t.cdu.link = x ∧ t.cdu.mask = x.mask ∧ t.cdu.missTol = s.cdu.missTol) ∧ (s.cdu.engine.between = false → t.cdu.link = s.cdu.link ∧ t.cdu.stagedLink = some x))
        ∧ ((∀ x, .link x ∉ all) → t.cdu.link = s.cdu.link ∧ t.cdu.stagedLink = none)))
  ∧ ∀ (control : Nat) (b : List Byte),
    let u := byteAt b
    let f := field b
    let read := fun k : TableKind => readTable control k b
    let headed := fun code length : Nat => u 0 = code ∧ f 4 4 = length
    let one := fun v : Nat => if v = 0 then 1 else v
    let atMost := fun hi v : Nat => if hi < v then hi else v
    let atLeast := fun lo v : Nat => if v < lo then lo else v
    let within := fun lo hi v : Nat => if v < lo then lo else if hi < v then hi else v
    let grade := fun n : Nat => if n % 4 = 0 then Grade.a else if n % 4 = 1 then .b else if n % 4 = 2 then .c else .cull
    (¬headed 1 0xA0 → read .transit = none) ∧ (¬headed 2 0x40 → read .detect = none) ∧ (¬headed 3 0x2020 → read .column = none)
    ∧ (¬headed 4 0x240 → read .cls = none) ∧ (¬headed 5 0x40 → read .grade = none) ∧ (¬headed 6 0x80 → read .product = none)
    ∧ (¬headed 7 0x40 → read .link = none) ∧ (¬headed 8 0x40 → read .shift = none)
    ∧ (headed 1 0xA0 →
      let window := fun w : Nat => ({ base := f (0x20 + 16 * w) 5, size := f (0x28 + 16 * w) 8 } : Window)
      let shared := fun w : Window => ∃ a, control ≤ a ∧ a < control + 4096 ∧ w.base ≤ a ∧ a < w.base + w.size
      let bad := fun w : Window =>
        w.base % 4096 ≠ 0 ∨ w.size % 4096 ≠ 0 ∨ (w.size ≠ 0 ∧ (2 ^ 40 < w.base + w.size ∨ shared w))
      (2 ^ 30 < (window 0).size ∨ (∃ w, w < 7 ∧ bad (window w)) → read .transit = none)
      ∧ ((window 0).size ≤ 2 ^ 30 → (∀ w, w < 7 → ¬bad (window w)) →
          ∃ x, read .transit = some (.transit x) ∧ x.image = window 0 ∧ (∀ k : Fin 6, x.protect[k] = window (k.val + 1))
            ∧ x.ownShare = within 1 15 (u 0x90) ∧ x.refreshLines = f 0x92 2))
    ∧ (headed 2 0x40 →
      let px := f 0x20 2
      let first := f 0x22 2
      let last := f 0x24 2
      let bad := px < 256 ∨ 8192 < px ∨ px % 32 ≠ 0 ∨ last < first ∨ px - 1 < last
      (bad → read .detect = none)
      ∧ (¬bad → read .detect = some (.detect
          { linePx := px, spanFirst := first, spanLast := last, ldiv := one (u 0x26)
            encEdge := if u 0x27 = 1 then .falling else if u 0x27 = 2 then .both else .rising
            polarityEnable := if u 0x28 = 1 then .dark else if u 0x28 = 2 then .bright else .both
            thDark := one (u 0x29), tlDark := atMost (one (u 0x29)) (one (u 0x2A))
            thBright := one (u 0x2B), tlBright := atMost (one (u 0x2B)) (one (u 0x2C))
            minRun := within 1 8 (u 0x2D), joinCols := atMost 15 (u 0x2E), gapLines := atMost 7 (u 0x2F)
            trackShift := within 1 12 (u 0x30), learnShift := atMost 4 (u 0x31), learnLines := one (u 0x32)
            maxBlobCounts := within 64 1048575 (f 0x34 4), colPitchUm := within 10 2000 (f 0x38 2)
            countUm := within 1 1000 (f 0x3A 2) })))
    ∧ (headed 3 0x2020 → 0x2020 ≤ b.length →
        ∃ x, read .column = some (.column x) ∧ ∀ c, c < 8192 → gainOf x c = atMost 63 (u (0x20 + c)))
    ∧ (headed 4 0x240 →
      let bad := 16 < u 0x20 ∨ ∃ r, r < u 0x20 ∧ 14 < u (0x40 + 16 * r)
      (bad → read .cls = none)
      ∧ (¬bad → ∃ x, read .cls = some (.cls x) ∧ x.rules.length = u 0x20
          ∧ (∀ r y, x.rules[r]? = some y →
              let o := 0x40 + 16 * r
              y.cls.val = u o ∧ y.dark = (u (o + 1)).testBit 0 ∧ y.bright = (u (o + 1)).testBit 1 ∧ y.aspect = u (o + 2)
                ∧ y.minPeak = u (o + 3) ∧ y.minArea = f (o + 4) 3 ∧ y.minUm = f (o + 8) 4 ∧ y.maxUm = f (o + 12) 4)
          ∧ ∀ k : Fin 16,
              let o := 0x140 + 12 * k.val
              let y := x.classes[k]
              y.b1 = f o 4 ∧ y.b2 = atLeast y.b1 (f (o + 4) 4) ∧ y.b3 = atLeast y.b2 (f (o + 8) 4)
                ∧ ∀ i : Fin 4, y.points[i] = u (0x200 + 4 * k.val + i.val)))
    ∧ (headed 5 0x40 → read .grade = some (.grade
        { trimCols := atMost 1023 (f 0x20 2), edgeCols := atMost 2047 (f 0x22 2), weightCenter := atMost 16 (u 0x24)
          weightEdge := atMost 16 (u 0x25), weightTrim := atMost 16 (u 0x26), aMax := f 0x28 2
          bMax := atLeast (f 0x28 2) (f 0x2A 2), cMax := atLeast (atLeast (f 0x28 2) (f 0x2A 2)) (f 0x2C 2)
          gapCap := grade (u 0x2E), cutoutPoints := one (u 0x27), laneA := u 0x30 % 16, laneB := u 0x31 % 16
          laneC := u 0x32 % 16, laneCull := u 0x33 % 16, laneCutout := u 0x34 % 16 }))
    ∧ (headed 6 0x80 →
      ((∀ p, p < 8 → u (0x24 + 8 * p) % 2 = 0) → read .product = none)
      ∧ ((∃ p, p < 8 ∧ u (0x24 + 8 * p) % 2 = 1) →
          ∃ x, read .product = some (.product x) ∧ x.minStrip = one (f 0x60 3) ∧ x.cutClear = f 0x64 2 ∧ x.settle = f 0x68 3
            ∧ ∀ p : Fin 8, x.products[p] =
                { length := atLeast x.minStrip (f (0x20 + 8 * p.val) 3), floor := grade (u (0x23 + 8 * p.val))
                  enabled := decide (u (0x24 + 8 * p.val) % 2 = 1) }))
    ∧ (headed 7 0x40 → read .link = some (.link
        { mask := BitVec.ofNat 4 (u 0x20), stationOffset := f 0x28 3, lead := f 0x2C 3, issueMargin := f 0x30 3
          missTol := f 0x34 3, cutTimeout := f 0x38 3, linkDiv := within 4 1023 (f 0x22 2), stretchLimit := one (u 0x21)
          pollGap := f 0x24 2 }))
    ∧ (headed 8 0x40 → read .shift = some (.shift
        { prescale := one (f 0x20 4 % 2 ^ 20), length := one (f 0x24 4), coarse := decide (u 0x28 % 2 = 1)
          repeats := decide (u 0x28 / 2 % 2 = 1), enabled := decide (u 0x28 / 4 % 2 = 1) }))

/-- BRIDGE_ENABLE: between transfers, with no LINK table staged, the mask is taken at once and acts on each bridge as R107's table gives;
during a transfer the command runs on and nothing is changed until the boundary (R107, R112). -/
def Obligations.BridgeEnable : Prop :=
  ∀ (s : State) (n : Fin 8), s.readyFor n → (s.slot n).command.code = 0x40 → s.cdu.stagedLink = none →
    let mask : BitVec 4 := (s.slot n).command.arg1.setWidth 4
    ∃ t, exec .bridgeEnable s = .next t
      ∧ (s.cdu.engine = .idle ∨ s.cdu.engine = .gap ∨ s.cdu.engine = .stuck →
          s.CompletesAs t n .ok 0 ∧ t.cdu.mask = mask ∧ t.cdu.newMask = none ∧ t.cdu.queue = s.cdu.queue
          ∧ ∀ b, t.bridge b =
              match mask.getLsbD b.val, (s.bridge b).state with
              | true, .disabled => { s.bridge b with state := .offline, misses := 0 }
              | true, _ => s.bridge b
              | false, .disabled => s.bridge b
              | false, .busy _ _ => s.bridge b
              | false, _ => { s.bridge b with state := .disabled, misses := 0 })
      ∧ (∀ b sent piece tag lane, s.cdu.engine = .pollXfer b sent ∨ s.cdu.engine = .cutXfer b piece tag lane sent →
          s.RunsIn t n .bridgeMask ∧ t.cdu = { s.cdu with newMask := some mask })
      ∧ t.lcu = { s.lcu with ltrig := false } ∧ t.fdu = s.fdu ∧ t.ppl = s.ppl ∧ t.sac = s.sac ∧ t.rou = s.rou

/-- STATUS_REFRESH runs until the grant of the status write that serves it, placing one if none waits; a command with an undefined code is
answered BAD_COMMAND and changes nothing else (R161, R164). -/
def Obligations.RefreshAndBadCommand : Prop :=
  ∀ (s : State) (n : Fin 8), s.readyFor n →
    let kept := fun t : State =>
      t.lcu = { s.lcu with ltrig := false } ∧ t.fdu = s.fdu ∧ t.ppl = s.ppl ∧ t.cdu = s.cdu ∧ t.sac = s.sac ∧ t.rou = s.rou
        ∧ s.tru.onlyOwn t.tru
    ((s.slot n).command.code = 0x50 → ∃ t, exec .statusRefresh s = .next t ∧ kept t ∧ s.RunsIn t n .refresh
      ∧ t.csu.statusWaiting = true
      ∧ t.tru.own ++ t.tru.waiting = s.tru.own ++ s.tru.waiting
          ++ if s.csu.statusWaiting then []
            else [{ purpose := .status, kind := .write, addr := s.tru.controlBase, beats := 8, data := [] }])
    ∧ ((s.slot n).command.code ∉ ([0x01, 0x02, 0x03, 0x10, 0x11, 0x12, 0x20, 0x30, 0x40, 0x41, 0x50, 0x7F] : List Byte) →
        ∃ t, exec .badCommand s = .next t ∧ kept t ∧ s.CompletesAs t n .badCommand 0 ∧ t.csu.inspection = s.csu.inspection)

/-- RESET_ENGINE with no LINK table staged: inspection is OFF; the capture, detection and planning state is empty, with the resume range
disarmed, the learn count 0, the planner IDLE, the scan seen marker clear and no provisional grade; every cut-queue entry is ABANDONED and
counted; bridges not DISABLED are OFFLINE, or DISABLED if BUSY without their enable bit; every miss count is 0; a new round begins at the
lowest bridge that is OFFLINE, or the engine is IDLE; and staged tables are in effect. The ribbon counter, the divider if no DETECT table was
staged, last stamp, scan position, reference, last blob id and piece counter, the enable mask, tag and LINK table, the transit unit, the
channels' positions and the open shift with its timer are as before (R15, R22, R38, R58, R102, R110, R123, R138, R167). -/
def Obligations.ResetEngine : Prop :=
  ∀ (s : State) (n : Fin 8), s.readyFor n → (s.slot n).command.code = 0x7F → s.cdu.stagedLink = none → s.cdu.newMask = none →
    ∃ t, exec .resetEngine s = .next t ∧ s.CompletesAs t n .ok 0
      ∧ t.csu.inspection = .off ∧ t.lcu.fifo = [] ∧ t.lcu.lineQueue = [] ∧ t.lcu.gaps = [] ∧ t.lcu.assembly = none
      ∧ t.lcu.resumeArmed = false ∧ t.lcu.counter = s.lcu.counter ∧ t.lcu.lastStamp = s.lcu.lastStamp
      ∧ (s.fdu.stagedDetect = none → t.lcu.divider = s.lcu.divider)
      ∧ t.fdu.analysis = none ∧ t.fdu.blobs = [] ∧ t.fdu.store = [] ∧ t.fdu.snapshot = none ∧ t.fdu.learnCount = 0
      ∧ t.fdu.scan = s.fdu.scan ∧ t.fdu.lastBlobId = s.fdu.lastBlobId
      ∧ t.fdu.detect = s.fdu.stagedDetect.getD s.fdu.detect ∧ t.fdu.columns = s.fdu.stagedColumns.getD s.fdu.columns
      ∧ t.fdu.classes = s.fdu.stagedClasses.getD s.fdu.classes ∧ t.fdu.reference = s.fdu.stagedReference.getD s.fdu.reference
      ∧ t.fdu.stagedDetect = none ∧ t.fdu.stagedColumns = none ∧ t.fdu.stagedClasses = none ∧ t.fdu.stagedReference = none
      ∧ t.ppl.piece = none ∧ t.ppl.nextPiece = s.ppl.nextPiece ∧ t.ppl.scanSeen = false ∧ t.ppl.provisional = none
      ∧ t.ppl.grade = s.ppl.stagedGrade.getD s.ppl.grade ∧ t.ppl.product = s.ppl.stagedProduct.getD s.ppl.product
      ∧ t.ppl.stagedGrade = none ∧ t.ppl.stagedProduct = none
      ∧ t.cdu.queue = [] ∧ t.cdu.mask = s.cdu.mask ∧ t.cdu.tag = s.cdu.tag ∧ t.cdu.link = s.cdu.link
      ∧ t.cdu.loopPos = 0 ∧ t.cdu.gapTime = 0 ∧ t.cdu.gapRunning = false
      ∧ (∀ b, (s.bridge b).state = .disabled → t.bridge b = { s.bridge b with misses := 0 })
      ∧ (∀ b, (s.bridge b).state ≠ .disabled →
          t.bridge b = { s.bridge b with
            state :=
              match (s.bridge b).state, s.cdu.mask.getLsbD b.val with
              | .busy _ _, false => .disabled
              | _, _ => .offline
            misses := 0 })
      ∧ ((∀ b, (t.bridge b).state = .disabled) → t.cdu.engine = .idle)
      ∧ (∀ b, (t.bridge b).state = .offline → (∀ c, c < b → (t.bridge c).state = .disabled) → t.cdu.engine = .pollXfer b false)
      ∧ (s.cdu.queue ≠ [] →
          t.sac.counters.outcomes[3] = satAdd max32 s.sac.counters.outcomes[3] s.cdu.queue.length)
      ∧ (s.cdu.queue = [] → t.sac = s.sac)
      ∧ (t.channel 1).produced = (s.channel 1).produced + BitVec.ofNat 32 s.cdu.queue.length
      ∧ (∀ ch, ch ≠ 1 → t.channel ch = s.channel ch)
      ∧ (∀ ch, (t.channel ch).state = (s.channel ch).state ∧ (t.channel ch).index = (s.channel ch).index
          ∧ (t.channel ch).entry = (s.channel ch).entry ∧ (t.channel ch).remaining = (s.channel ch).remaining
          ∧ (t.channel ch).written = (s.channel ch).written ∧ (t.channel ch).table = (s.channel ch).table
          ∧ (t.channel ch).autoRestart = (s.channel ch).autoRestart ∧ (t.channel ch).restart = (s.channel ch).restart
          ∧ (t.channel ch).pendingOp = (s.channel ch).pendingOp)
      ∧ t.sac.number = s.sac.number ∧ t.sac.startPos = s.sac.startPos ∧ t.sac.openReason = s.sac.openReason
      ∧ t.sac.running = s.sac.running ∧ t.sac.prescaleCount = s.sac.prescaleCount ∧ t.sac.tickCount = s.sac.tickCount
      ∧ t.sac.stepCount = s.sac.stepCount ∧ t.sac.params = s.sac.params ∧ t.sac.expired = s.sac.expired
      ∧ t.tru.transit = s.tru.transit ∧ t.tru.flight = s.tru.flight ∧ t.tru.controlBase = s.tru.controlBase
      ∧ t.tru.params = s.tru.params ∧ t.tru.ackShadow = s.tru.ackShadow ∧ t.tru.enableShadow = s.tru.enableShadow
      ∧ t.tru.stopShadow = s.tru.stopShadow ∧ t.tru.share = s.tru.share ∧ t.tru.hits = s.tru.hits
      ∧ s.tru.own ++ s.tru.waiting <+: t.tru.own ++ t.tru.waiting
end

