-- ==== Sys2Proof/Laws/Cells.lean ====
section
/-! SUPPORT. The canonical form of the column and reference tables: what builds one keeps it, and reading back gives what was stored. -/

namespace Sys2Proof.Machine

variable {α : Type} [DecidableEq α]

/-- Cells built from at most `n - k` entries from index `k` on are canonical. -/
theorem Cells.wfFrom_ofList (d : α) (n : Nat) (l : List α) :
    ∀ k, k + l.length ≤ n → ∀ j, j ≤ k → Cells.wfFrom d n j (Cells.ofList d k l) = true := by
  induction l with
  | nil => intros; rfl
  | cons v rest ih =>
    intro k hk j hj
    simp only [List.length_cons] at hk
    unfold Cells.ofList
    split
    · exact ih (k + 1) (by omega) j (by omega)
    · rename_i hv
      simp only [Cells.wfFrom, Bool.and_eq_true, decide_eq_true_eq]
      exact ⟨⟨⟨hj, by omega⟩, hv⟩, ih (k + 1) (by omega) (k + 1) (Nat.le_refl _)⟩

/-- A table built from at most 8192 entries is canonical. -/
theorem Cells.wf_ofList (d : α) (l : List α) (h : l.length ≤ columnCount) : Cells.wf d (Cells.ofList d 0 l) = true :=
  Cells.wfFrom_ofList d columnCount l 0 (by omega) 0 (Nat.le_refl _)

/-- Reading an index below all of the cells gives the power-on value. -/
theorem Cells.get_of_lt (d : α) (n : Nat) (c : Cells α) :
    ∀ j k, Cells.wfFrom d n j c = true → k < j → Cells.get d c k = d := by
  induction c with
  | nil => intros; rfl
  | cons x rest ih =>
    intro j k h hk
    simp only [Cells.wfFrom, Bool.and_eq_true, decide_eq_true_eq] at h
    unfold Cells.get
    rw [if_neg (by omega)]
    exact ih (x.1 + 1) k h.2 (by omega)

/-- Reading index `k + i` of cells built from index `k` on gives entry `i`, or the power-on value past the end. -/
theorem Cells.get_ofList (d : α) (l : List α) : ∀ k i, Cells.get d (Cells.ofList d k l) (k + i) = l.getD i d := by
  induction l with
  | nil => intros; rfl
  | cons v rest ih =>
    intro k i
    unfold Cells.ofList
    cases i with
    | zero =>
      split
      · rename_i hv
        rw [Cells.get_of_lt d (k + 1 + rest.length) _ (k + 1) (k + 0)
          (Cells.wfFrom_ofList d _ rest (k + 1) (by omega) (k + 1) (Nat.le_refl _)) (by omega)]
        simp [hv]
      · simp [Cells.get]
    | succ i =>
      have e : k + (i + 1) = k + 1 + i := by omega
      split
      · rw [e, ih]; simp
      · unfold Cells.get
        rw [if_neg (by omega), e, ih]; simp

omit [DecidableEq α] in
theorem Cells.length_toList (d : α) : ∀ n k (c : Cells α), (Cells.toList d k n c).length = n := by
  intro n
  induction n with
  | zero => intro k c; cases c <;> rfl
  | succ n ih =>
    intro k c
    cases c with
    | nil => simp [Cells.toList, ih]
    | cons x rest => unfold Cells.toList; split <;> simp [ih]

/-- The reference after a line is canonical (R29, R30). -/
theorem referenceAfter_wf (t : Detect) (mode : LineMode) (cols : List Column) (refs : Cells Background) :
    Cells.wf powerOnBackground (referenceAfter t mode cols refs) = true := by
  apply Cells.wf_ofList
  simp only [List.length_take]
  omega

/-- A COLUMN table as read is canonical (R34). -/
theorem readColumn_wf (b : List Byte) : Cells.wf maskedGain (readColumn b) = true := by
  apply Cells.wf_ofList
  simp only [List.length_map, List.length_take]
  omega

theorem length_backgroundsOf : ∀ n b, (backgroundsOf n b).length = n := by
  intro n
  induction n with
  | zero => intro b; rfl
  | succ n ih => intro b; simp [backgroundsOf, ih]

/-- A reference image as read is canonical (R37). -/
theorem readReference_wf (b : List Byte) : Cells.wf powerOnBackground (readReference b) = true := by
  apply Cells.wf_ofList
  exact Nat.le_of_eq (length_backgroundsOf _ _)

end Sys2Proof.Machine
end

