-- ==== Sys2Proof/Laws/State.lean ====
section
/-! SUPPORT. What each shared operation leaves alone, one lemma per block or field: no later proof unfolds a record update. -/

namespace Sys2Proof.Machine

variable (s : State)

/-! ### `State.place` -/

@[simp] theorem State.place_pending (r : OwnRequest) : (s.place r).pending = s.pending := rfl
@[simp] theorem State.place_porstLow (r : OwnRequest) : (s.place r).porstLow = s.porstLow := rfl
@[simp] theorem State.place_ctlsel (r : OwnRequest) : (s.place r).ctlsel = s.ctlsel := rfl
@[simp] theorem State.place_freeCount (r : OwnRequest) : (s.place r).freeCount = s.freeCount := rfl
@[simp] theorem State.place_lcu (r : OwnRequest) : (s.place r).lcu = s.lcu := rfl
@[simp] theorem State.place_fdu (r : OwnRequest) : (s.place r).fdu = s.fdu := rfl
@[simp] theorem State.place_ppl (r : OwnRequest) : (s.place r).ppl = s.ppl := rfl
@[simp] theorem State.place_cdu (r : OwnRequest) : (s.place r).cdu = s.cdu := rfl
@[simp] theorem State.place_tru_transit (r : OwnRequest) : (s.place r).tru.transit = s.tru.transit := rfl
@[simp] theorem State.place_tru_own (r : OwnRequest) : (s.place r).tru.own = s.tru.own := rfl
@[simp] theorem State.place_tru_waiting (r : OwnRequest) : (s.place r).tru.waiting = s.tru.waiting := rfl
@[simp] theorem State.place_tru_flight (r : OwnRequest) : (s.place r).tru.flight = s.tru.flight := rfl
@[simp] theorem State.place_tru_controlBase (r : OwnRequest) : (s.place r).tru.controlBase = s.tru.controlBase := rfl
@[simp] theorem State.place_tru_params (r : OwnRequest) : (s.place r).tru.params = s.tru.params := rfl
@[simp] theorem State.place_tru_ackShadow (r : OwnRequest) : (s.place r).tru.ackShadow = s.tru.ackShadow := rfl
@[simp] theorem State.place_tru_enableShadow (r : OwnRequest) : (s.place r).tru.enableShadow = s.tru.enableShadow := rfl
@[simp] theorem State.place_tru_stopShadow (r : OwnRequest) : (s.place r).tru.stopShadow = s.tru.stopShadow := rfl
@[simp] theorem State.place_tru_share (r : OwnRequest) : (s.place r).tru.share = s.tru.share := rfl
@[simp] theorem State.place_tru_hits (r : OwnRequest) : (s.place r).tru.hits = s.tru.hits := rfl
@[simp] theorem State.place_tru_answers (r : OwnRequest) : (s.place r).tru.answers = s.tru.answers := rfl
@[simp] theorem State.place_rou (r : OwnRequest) : (s.place r).rou = s.rou := rfl
@[simp] theorem State.place_sac (r : OwnRequest) : (s.place r).sac = s.sac := rfl
@[simp] theorem State.place_csu (r : OwnRequest) : (s.place r).csu = s.csu := rfl
@[simp] theorem State.place_channel (r : OwnRequest) (k : Fin 3) : (s.place r).channel k = s.channel k := by
  simp [State.channel]
@[simp] theorem State.place_slot (r : OwnRequest) (k : Fin 8) : (s.place r).slot k = s.slot k := by
  simp [State.slot]
@[simp] theorem State.place_bridge (r : OwnRequest) (k : Fin 4) : (s.place r).bridge k = s.bridge k := by
  simp [State.bridge]
@[simp] theorem State.place_stopWord (r : OwnRequest) (k : Fin 3) : (s.place r).stopWord k = s.stopWord k := by
  simp [State.stopWord]

/-! ### `State.requestStatus` -/

@[simp] theorem State.requestStatus_pending : (s.requestStatus).pending = s.pending := by unfold State.requestStatus; split <;> rfl
@[simp] theorem State.requestStatus_porstLow : (s.requestStatus).porstLow = s.porstLow := by unfold State.requestStatus; split <;> rfl
@[simp] theorem State.requestStatus_ctlsel : (s.requestStatus).ctlsel = s.ctlsel := by unfold State.requestStatus; split <;> rfl
@[simp] theorem State.requestStatus_freeCount : (s.requestStatus).freeCount = s.freeCount := by unfold State.requestStatus; split <;> rfl
@[simp] theorem State.requestStatus_lcu : (s.requestStatus).lcu = s.lcu := by unfold State.requestStatus; split <;> rfl
@[simp] theorem State.requestStatus_fdu : (s.requestStatus).fdu = s.fdu := by unfold State.requestStatus; split <;> rfl
@[simp] theorem State.requestStatus_ppl : (s.requestStatus).ppl = s.ppl := by unfold State.requestStatus; split <;> rfl
@[simp] theorem State.requestStatus_cdu : (s.requestStatus).cdu = s.cdu := by unfold State.requestStatus; split <;> rfl
@[simp] theorem State.requestStatus_tru_transit : (s.requestStatus).tru.transit = s.tru.transit := by unfold State.requestStatus; split <;> rfl
@[simp] theorem State.requestStatus_tru_own : (s.requestStatus).tru.own = s.tru.own := by unfold State.requestStatus; split <;> rfl
@[simp] theorem State.requestStatus_tru_waiting : (s.requestStatus).tru.waiting = s.tru.waiting := by unfold State.requestStatus; split <;> rfl
@[simp] theorem State.requestStatus_tru_flight : (s.requestStatus).tru.flight = s.tru.flight := by unfold State.requestStatus; split <;> rfl
@[simp] theorem State.requestStatus_tru_controlBase : (s.requestStatus).tru.controlBase = s.tru.controlBase := by unfold State.requestStatus; split <;> rfl
@[simp] theorem State.requestStatus_tru_params : (s.requestStatus).tru.params = s.tru.params := by unfold State.requestStatus; split <;> rfl
@[simp] theorem State.requestStatus_tru_ackShadow : (s.requestStatus).tru.ackShadow = s.tru.ackShadow := by unfold State.requestStatus; split <;> rfl
@[simp] theorem State.requestStatus_tru_enableShadow : (s.requestStatus).tru.enableShadow = s.tru.enableShadow := by unfold State.requestStatus; split <;> rfl
@[simp] theorem State.requestStatus_tru_stopShadow : (s.requestStatus).tru.stopShadow = s.tru.stopShadow := by unfold State.requestStatus; split <;> rfl
@[simp] theorem State.requestStatus_tru_share : (s.requestStatus).tru.share = s.tru.share := by unfold State.requestStatus; split <;> rfl
@[simp] theorem State.requestStatus_tru_hits : (s.requestStatus).tru.hits = s.tru.hits := by unfold State.requestStatus; split <;> rfl
@[simp] theorem State.requestStatus_tru_answers : (s.requestStatus).tru.answers = s.tru.answers := by unfold State.requestStatus; split <;> rfl
@[simp] theorem State.requestStatus_rou : (s.requestStatus).rou = s.rou := by unfold State.requestStatus; split <;> rfl
@[simp] theorem State.requestStatus_sac : (s.requestStatus).sac = s.sac := by unfold State.requestStatus; split <;> rfl
@[simp] theorem State.requestStatus_csu_inspection : (s.requestStatus).csu.inspection = s.csu.inspection := by unfold State.requestStatus; split <;> rfl
@[simp] theorem State.requestStatus_csu_slots : (s.requestStatus).csu.slots = s.csu.slots := by unfold State.requestStatus; split <;> rfl
@[simp] theorem State.requestStatus_csu_fifo : (s.requestStatus).csu.fifo = s.csu.fifo := by unfold State.requestStatus; split <;> rfl
@[simp] theorem State.requestStatus_csu_running : (s.requestStatus).csu.running = s.csu.running := by unfold State.requestStatus; split <;> rfl
@[simp] theorem State.requestStatus_csu_causes : (s.requestStatus).csu.causes = s.csu.causes := by unfold State.requestStatus; split <;> rfl
@[simp] theorem State.requestStatus_csu_refreshCount : (s.requestStatus).csu.refreshCount = s.csu.refreshCount := by unfold State.requestStatus; split <;> rfl
@[simp] theorem State.requestStatus_channel (k : Fin 3) : (s.requestStatus).channel k = s.channel k := by
  simp [State.channel]
@[simp] theorem State.requestStatus_slot (k : Fin 8) : (s.requestStatus).slot k = s.slot k := by
  simp [State.slot]
@[simp] theorem State.requestStatus_bridge (k : Fin 4) : (s.requestStatus).bridge k = s.bridge k := by
  simp [State.bridge]
@[simp] theorem State.requestStatus_stopWord (k : Fin 3) : (s.requestStatus).stopWord k = s.stopWord k := by
  simp [State.stopWord]

/-! ### `State.setCauses` -/

@[simp] theorem State.setCauses_pending (w : Word) : (s.setCauses w).pending = s.pending := by unfold State.setCauses; split <;> simp
@[simp] theorem State.setCauses_porstLow (w : Word) : (s.setCauses w).porstLow = s.porstLow := by unfold State.setCauses; split <;> simp
@[simp] theorem State.setCauses_ctlsel (w : Word) : (s.setCauses w).ctlsel = s.ctlsel := by unfold State.setCauses; split <;> simp
@[simp] theorem State.setCauses_freeCount (w : Word) : (s.setCauses w).freeCount = s.freeCount := by unfold State.setCauses; split <;> simp
@[simp] theorem State.setCauses_lcu (w : Word) : (s.setCauses w).lcu = s.lcu := by unfold State.setCauses; split <;> simp
@[simp] theorem State.setCauses_fdu (w : Word) : (s.setCauses w).fdu = s.fdu := by unfold State.setCauses; split <;> simp
@[simp] theorem State.setCauses_ppl (w : Word) : (s.setCauses w).ppl = s.ppl := by unfold State.setCauses; split <;> simp
@[simp] theorem State.setCauses_cdu (w : Word) : (s.setCauses w).cdu = s.cdu := by unfold State.setCauses; split <;> simp
@[simp] theorem State.setCauses_tru_transit (w : Word) : (s.setCauses w).tru.transit = s.tru.transit := by unfold State.setCauses; split <;> simp
@[simp] theorem State.setCauses_tru_own (w : Word) : (s.setCauses w).tru.own = s.tru.own := by unfold State.setCauses; split <;> simp
@[simp] theorem State.setCauses_tru_waiting (w : Word) : (s.setCauses w).tru.waiting = s.tru.waiting := by unfold State.setCauses; split <;> simp
@[simp] theorem State.setCauses_tru_flight (w : Word) : (s.setCauses w).tru.flight = s.tru.flight := by unfold State.setCauses; split <;> simp
@[simp] theorem State.setCauses_tru_controlBase (w : Word) : (s.setCauses w).tru.controlBase = s.tru.controlBase := by unfold State.setCauses; split <;> simp
@[simp] theorem State.setCauses_tru_params (w : Word) : (s.setCauses w).tru.params = s.tru.params := by unfold State.setCauses; split <;> simp
@[simp] theorem State.setCauses_tru_ackShadow (w : Word) : (s.setCauses w).tru.ackShadow = s.tru.ackShadow := by unfold State.setCauses; split <;> simp
@[simp] theorem State.setCauses_tru_enableShadow (w : Word) : (s.setCauses w).tru.enableShadow = s.tru.enableShadow := by unfold State.setCauses; split <;> simp
@[simp] theorem State.setCauses_tru_stopShadow (w : Word) : (s.setCauses w).tru.stopShadow = s.tru.stopShadow := by unfold State.setCauses; split <;> simp
@[simp] theorem State.setCauses_tru_share (w : Word) : (s.setCauses w).tru.share = s.tru.share := by unfold State.setCauses; split <;> simp
@[simp] theorem State.setCauses_tru_hits (w : Word) : (s.setCauses w).tru.hits = s.tru.hits := by unfold State.setCauses; split <;> simp
@[simp] theorem State.setCauses_tru_answers (w : Word) : (s.setCauses w).tru.answers = s.tru.answers := by unfold State.setCauses; split <;> simp
@[simp] theorem State.setCauses_rou (w : Word) : (s.setCauses w).rou = s.rou := by unfold State.setCauses; split <;> simp
@[simp] theorem State.setCauses_sac (w : Word) : (s.setCauses w).sac = s.sac := by unfold State.setCauses; split <;> simp
@[simp] theorem State.setCauses_csu_inspection (w : Word) : (s.setCauses w).csu.inspection = s.csu.inspection := by unfold State.setCauses; split <;> simp
@[simp] theorem State.setCauses_csu_slots (w : Word) : (s.setCauses w).csu.slots = s.csu.slots := by unfold State.setCauses; split <;> simp
@[simp] theorem State.setCauses_csu_fifo (w : Word) : (s.setCauses w).csu.fifo = s.csu.fifo := by unfold State.setCauses; split <;> simp
@[simp] theorem State.setCauses_csu_running (w : Word) : (s.setCauses w).csu.running = s.csu.running := by unfold State.setCauses; split <;> simp
@[simp] theorem State.setCauses_csu_refreshCount (w : Word) : (s.setCauses w).csu.refreshCount = s.csu.refreshCount := by unfold State.setCauses; split <;> simp
@[simp] theorem State.setCauses_channel (w : Word) (k : Fin 3) : (s.setCauses w).channel k = s.channel k := by
  simp [State.channel]
@[simp] theorem State.setCauses_slot (w : Word) (k : Fin 8) : (s.setCauses w).slot k = s.slot k := by
  simp [State.slot]
@[simp] theorem State.setCauses_bridge (w : Word) (k : Fin 4) : (s.setCauses w).bridge k = s.bridge k := by
  simp [State.bridge]
@[simp] theorem State.setCauses_stopWord (w : Word) (k : Fin 3) : (s.setCauses w).stopWord k = s.stopWord k := by
  simp [State.stopWord]

/-! ### `State.raise` -/

@[simp] theorem State.raise_pending (c : Cause) : (s.raise c).pending = s.pending := by simp [State.raise]
@[simp] theorem State.raise_porstLow (c : Cause) : (s.raise c).porstLow = s.porstLow := by simp [State.raise]
@[simp] theorem State.raise_ctlsel (c : Cause) : (s.raise c).ctlsel = s.ctlsel := by simp [State.raise]
@[simp] theorem State.raise_freeCount (c : Cause) : (s.raise c).freeCount = s.freeCount := by simp [State.raise]
@[simp] theorem State.raise_lcu (c : Cause) : (s.raise c).lcu = s.lcu := by simp [State.raise]
@[simp] theorem State.raise_fdu (c : Cause) : (s.raise c).fdu = s.fdu := by simp [State.raise]
@[simp] theorem State.raise_ppl (c : Cause) : (s.raise c).ppl = s.ppl := by simp [State.raise]
@[simp] theorem State.raise_cdu (c : Cause) : (s.raise c).cdu = s.cdu := by simp [State.raise]
@[simp] theorem State.raise_tru_transit (c : Cause) : (s.raise c).tru.transit = s.tru.transit := by simp [State.raise]
@[simp] theorem State.raise_tru_own (c : Cause) : (s.raise c).tru.own = s.tru.own := by simp [State.raise]
@[simp] theorem State.raise_tru_waiting (c : Cause) : (s.raise c).tru.waiting = s.tru.waiting := by simp [State.raise]
@[simp] theorem State.raise_tru_flight (c : Cause) : (s.raise c).tru.flight = s.tru.flight := by simp [State.raise]
@[simp] theorem State.raise_tru_controlBase (c : Cause) : (s.raise c).tru.controlBase = s.tru.controlBase := by simp [State.raise]
@[simp] theorem State.raise_tru_params (c : Cause) : (s.raise c).tru.params = s.tru.params := by simp [State.raise]
@[simp] theorem State.raise_tru_ackShadow (c : Cause) : (s.raise c).tru.ackShadow = s.tru.ackShadow := by simp [State.raise]
@[simp] theorem State.raise_tru_enableShadow (c : Cause) : (s.raise c).tru.enableShadow = s.tru.enableShadow := by simp [State.raise]
@[simp] theorem State.raise_tru_stopShadow (c : Cause) : (s.raise c).tru.stopShadow = s.tru.stopShadow := by simp [State.raise]
@[simp] theorem State.raise_tru_share (c : Cause) : (s.raise c).tru.share = s.tru.share := by simp [State.raise]
@[simp] theorem State.raise_tru_hits (c : Cause) : (s.raise c).tru.hits = s.tru.hits := by simp [State.raise]
@[simp] theorem State.raise_tru_answers (c : Cause) : (s.raise c).tru.answers = s.tru.answers := by simp [State.raise]
@[simp] theorem State.raise_rou (c : Cause) : (s.raise c).rou = s.rou := by simp [State.raise]
@[simp] theorem State.raise_sac (c : Cause) : (s.raise c).sac = s.sac := by simp [State.raise]
@[simp] theorem State.raise_csu_inspection (c : Cause) : (s.raise c).csu.inspection = s.csu.inspection := by simp [State.raise]
@[simp] theorem State.raise_csu_slots (c : Cause) : (s.raise c).csu.slots = s.csu.slots := by simp [State.raise]
@[simp] theorem State.raise_csu_fifo (c : Cause) : (s.raise c).csu.fifo = s.csu.fifo := by simp [State.raise]
@[simp] theorem State.raise_csu_running (c : Cause) : (s.raise c).csu.running = s.csu.running := by simp [State.raise]
@[simp] theorem State.raise_csu_refreshCount (c : Cause) : (s.raise c).csu.refreshCount = s.csu.refreshCount := by simp [State.raise]
@[simp] theorem State.raise_channel (c : Cause) (k : Fin 3) : (s.raise c).channel k = s.channel k := by
  simp [State.channel]
@[simp] theorem State.raise_slot (c : Cause) (k : Fin 8) : (s.raise c).slot k = s.slot k := by
  simp [State.slot]
@[simp] theorem State.raise_bridge (c : Cause) (k : Fin 4) : (s.raise c).bridge k = s.bridge k := by
  simp [State.bridge]
@[simp] theorem State.raise_stopWord (c : Cause) (k : Fin 3) : (s.raise c).stopWord k = s.stopWord k := by
  simp [State.stopWord]

/-! ### `State.count` -/

@[simp] theorem State.count_pending (f : ShiftCounters → ShiftCounters) : (s.count f).pending = s.pending := rfl
@[simp] theorem State.count_porstLow (f : ShiftCounters → ShiftCounters) : (s.count f).porstLow = s.porstLow := rfl
@[simp] theorem State.count_ctlsel (f : ShiftCounters → ShiftCounters) : (s.count f).ctlsel = s.ctlsel := rfl
@[simp] theorem State.count_freeCount (f : ShiftCounters → ShiftCounters) : (s.count f).freeCount = s.freeCount := rfl
@[simp] theorem State.count_lcu (f : ShiftCounters → ShiftCounters) : (s.count f).lcu = s.lcu := rfl
@[simp] theorem State.count_fdu (f : ShiftCounters → ShiftCounters) : (s.count f).fdu = s.fdu := rfl
@[simp] theorem State.count_ppl (f : ShiftCounters → ShiftCounters) : (s.count f).ppl = s.ppl := rfl
@[simp] theorem State.count_cdu (f : ShiftCounters → ShiftCounters) : (s.count f).cdu = s.cdu := rfl
@[simp] theorem State.count_tru (f : ShiftCounters → ShiftCounters) : (s.count f).tru = s.tru := rfl
@[simp] theorem State.count_rou (f : ShiftCounters → ShiftCounters) : (s.count f).rou = s.rou := rfl
@[simp] theorem State.count_sac_number (f : ShiftCounters → ShiftCounters) : (s.count f).sac.number = s.sac.number := rfl
@[simp] theorem State.count_sac_startPos (f : ShiftCounters → ShiftCounters) : (s.count f).sac.startPos = s.sac.startPos := rfl
@[simp] theorem State.count_sac_openReason (f : ShiftCounters → ShiftCounters) : (s.count f).sac.openReason = s.sac.openReason := rfl
@[simp] theorem State.count_sac_running (f : ShiftCounters → ShiftCounters) : (s.count f).sac.running = s.sac.running := rfl
@[simp] theorem State.count_sac_prescaleCount (f : ShiftCounters → ShiftCounters) : (s.count f).sac.prescaleCount = s.sac.prescaleCount := rfl
@[simp] theorem State.count_sac_tickCount (f : ShiftCounters → ShiftCounters) : (s.count f).sac.tickCount = s.sac.tickCount := rfl
@[simp] theorem State.count_sac_stepCount (f : ShiftCounters → ShiftCounters) : (s.count f).sac.stepCount = s.sac.stepCount := rfl
@[simp] theorem State.count_sac_params (f : ShiftCounters → ShiftCounters) : (s.count f).sac.params = s.sac.params := rfl
@[simp] theorem State.count_sac_expired (f : ShiftCounters → ShiftCounters) : (s.count f).sac.expired = s.sac.expired := rfl
@[simp] theorem State.count_csu (f : ShiftCounters → ShiftCounters) : (s.count f).csu = s.csu := rfl
@[simp] theorem State.count_channel (f : ShiftCounters → ShiftCounters) (k : Fin 3) : (s.count f).channel k = s.channel k := by
  simp [State.channel]
@[simp] theorem State.count_slot (f : ShiftCounters → ShiftCounters) (k : Fin 8) : (s.count f).slot k = s.slot k := by
  simp [State.slot]
@[simp] theorem State.count_bridge (f : ShiftCounters → ShiftCounters) (k : Fin 4) : (s.count f).bridge k = s.bridge k := by
  simp [State.bridge]
@[simp] theorem State.count_stopWord (f : ShiftCounters → ShiftCounters) (k : Fin 3) : (s.count f).stopWord k = s.stopWord k := by
  simp [State.stopWord]

/-! ### `State.addGap` -/

@[simp] theorem State.addGap_pending (g : Gap) : (s.addGap g).pending = s.pending := rfl
@[simp] theorem State.addGap_porstLow (g : Gap) : (s.addGap g).porstLow = s.porstLow := rfl
@[simp] theorem State.addGap_ctlsel (g : Gap) : (s.addGap g).ctlsel = s.ctlsel := rfl
@[simp] theorem State.addGap_freeCount (g : Gap) : (s.addGap g).freeCount = s.freeCount := rfl
@[simp] theorem State.addGap_lcu_counter (g : Gap) : (s.addGap g).lcu.counter = s.lcu.counter := rfl
@[simp] theorem State.addGap_lcu_divider (g : Gap) : (s.addGap g).lcu.divider = s.lcu.divider := rfl
@[simp] theorem State.addGap_lcu_fifo (g : Gap) : (s.addGap g).lcu.fifo = s.lcu.fifo := rfl
@[simp] theorem State.addGap_lcu_lastStamp (g : Gap) : (s.addGap g).lcu.lastStamp = s.lcu.lastStamp := rfl
@[simp] theorem State.addGap_lcu_assembly (g : Gap) : (s.addGap g).lcu.assembly = s.lcu.assembly := rfl
@[simp] theorem State.addGap_lcu_lineQueue (g : Gap) : (s.addGap g).lcu.lineQueue = s.lcu.lineQueue := rfl
@[simp] theorem State.addGap_lcu_resumeArmed (g : Gap) : (s.addGap g).lcu.resumeArmed = s.lcu.resumeArmed := rfl
@[simp] theorem State.addGap_lcu_ltrig (g : Gap) : (s.addGap g).lcu.ltrig = s.lcu.ltrig := rfl
@[simp] theorem State.addGap_fdu (g : Gap) : (s.addGap g).fdu = s.fdu := rfl
@[simp] theorem State.addGap_ppl (g : Gap) : (s.addGap g).ppl = s.ppl := rfl
@[simp] theorem State.addGap_cdu (g : Gap) : (s.addGap g).cdu = s.cdu := rfl
@[simp] theorem State.addGap_tru (g : Gap) : (s.addGap g).tru = s.tru := rfl
@[simp] theorem State.addGap_rou (g : Gap) : (s.addGap g).rou = s.rou := rfl
@[simp] theorem State.addGap_sac (g : Gap) : (s.addGap g).sac = s.sac := rfl
@[simp] theorem State.addGap_csu (g : Gap) : (s.addGap g).csu = s.csu := rfl
@[simp] theorem State.addGap_channel (g : Gap) (k : Fin 3) : (s.addGap g).channel k = s.channel k := by
  simp [State.channel]
@[simp] theorem State.addGap_slot (g : Gap) (k : Fin 8) : (s.addGap g).slot k = s.slot k := by
  simp [State.slot]
@[simp] theorem State.addGap_bridge (g : Gap) (k : Fin 4) : (s.addGap g).bridge k = s.bridge k := by
  simp [State.bridge]
@[simp] theorem State.addGap_stopWord (g : Gap) (k : Fin 3) : (s.addGap g).stopWord k = s.stopWord k := by
  simp [State.stopWord]

/-! ### `State.addLoss` -/

@[simp] theorem State.addLoss_pending (c : LossCause) (g : Gap) : (s.addLoss c g).pending = s.pending := by unfold State.addLoss; split <;> simp
@[simp] theorem State.addLoss_porstLow (c : LossCause) (g : Gap) : (s.addLoss c g).porstLow = s.porstLow := by unfold State.addLoss; split <;> simp
@[simp] theorem State.addLoss_ctlsel (c : LossCause) (g : Gap) : (s.addLoss c g).ctlsel = s.ctlsel := by unfold State.addLoss; split <;> simp
@[simp] theorem State.addLoss_freeCount (c : LossCause) (g : Gap) : (s.addLoss c g).freeCount = s.freeCount := by unfold State.addLoss; split <;> simp
@[simp] theorem State.addLoss_lcu_counter (c : LossCause) (g : Gap) : (s.addLoss c g).lcu.counter = s.lcu.counter := by unfold State.addLoss; split <;> simp
@[simp] theorem State.addLoss_lcu_divider (c : LossCause) (g : Gap) : (s.addLoss c g).lcu.divider = s.lcu.divider := by unfold State.addLoss; split <;> simp
@[simp] theorem State.addLoss_lcu_fifo (c : LossCause) (g : Gap) : (s.addLoss c g).lcu.fifo = s.lcu.fifo := by unfold State.addLoss; split <;> simp
@[simp] theorem State.addLoss_lcu_lastStamp (c : LossCause) (g : Gap) : (s.addLoss c g).lcu.lastStamp = s.lcu.lastStamp := by unfold State.addLoss; split <;> simp
@[simp] theorem State.addLoss_lcu_assembly (c : LossCause) (g : Gap) : (s.addLoss c g).lcu.assembly = s.lcu.assembly := by unfold State.addLoss; split <;> simp
@[simp] theorem State.addLoss_lcu_lineQueue (c : LossCause) (g : Gap) : (s.addLoss c g).lcu.lineQueue = s.lcu.lineQueue := by unfold State.addLoss; split <;> simp
@[simp] theorem State.addLoss_lcu_resumeArmed (c : LossCause) (g : Gap) : (s.addLoss c g).lcu.resumeArmed = s.lcu.resumeArmed := by unfold State.addLoss; split <;> simp
@[simp] theorem State.addLoss_lcu_ltrig (c : LossCause) (g : Gap) : (s.addLoss c g).lcu.ltrig = s.lcu.ltrig := by unfold State.addLoss; split <;> simp
@[simp] theorem State.addLoss_fdu (c : LossCause) (g : Gap) : (s.addLoss c g).fdu = s.fdu := by unfold State.addLoss; split <;> simp
@[simp] theorem State.addLoss_ppl (c : LossCause) (g : Gap) : (s.addLoss c g).ppl = s.ppl := by unfold State.addLoss; split <;> simp
@[simp] theorem State.addLoss_cdu (c : LossCause) (g : Gap) : (s.addLoss c g).cdu = s.cdu := by unfold State.addLoss; split <;> simp
@[simp] theorem State.addLoss_tru_transit (c : LossCause) (g : Gap) : (s.addLoss c g).tru.transit = s.tru.transit := by unfold State.addLoss; split <;> simp
@[simp] theorem State.addLoss_tru_own (c : LossCause) (g : Gap) : (s.addLoss c g).tru.own = s.tru.own := by unfold State.addLoss; split <;> simp
@[simp] theorem State.addLoss_tru_waiting (c : LossCause) (g : Gap) : (s.addLoss c g).tru.waiting = s.tru.waiting := by unfold State.addLoss; split <;> simp
@[simp] theorem State.addLoss_tru_flight (c : LossCause) (g : Gap) : (s.addLoss c g).tru.flight = s.tru.flight := by unfold State.addLoss; split <;> simp
@[simp] theorem State.addLoss_tru_controlBase (c : LossCause) (g : Gap) : (s.addLoss c g).tru.controlBase = s.tru.controlBase := by unfold State.addLoss; split <;> simp
@[simp] theorem State.addLoss_tru_params (c : LossCause) (g : Gap) : (s.addLoss c g).tru.params = s.tru.params := by unfold State.addLoss; split <;> simp
@[simp] theorem State.addLoss_tru_ackShadow (c : LossCause) (g : Gap) : (s.addLoss c g).tru.ackShadow = s.tru.ackShadow := by unfold State.addLoss; split <;> simp
@[simp] theorem State.addLoss_tru_enableShadow (c : LossCause) (g : Gap) : (s.addLoss c g).tru.enableShadow = s.tru.enableShadow := by unfold State.addLoss; split <;> simp
@[simp] theorem State.addLoss_tru_stopShadow (c : LossCause) (g : Gap) : (s.addLoss c g).tru.stopShadow = s.tru.stopShadow := by unfold State.addLoss; split <;> simp
@[simp] theorem State.addLoss_tru_share (c : LossCause) (g : Gap) : (s.addLoss c g).tru.share = s.tru.share := by unfold State.addLoss; split <;> simp
@[simp] theorem State.addLoss_tru_hits (c : LossCause) (g : Gap) : (s.addLoss c g).tru.hits = s.tru.hits := by unfold State.addLoss; split <;> simp
@[simp] theorem State.addLoss_tru_answers (c : LossCause) (g : Gap) : (s.addLoss c g).tru.answers = s.tru.answers := by unfold State.addLoss; split <;> simp
@[simp] theorem State.addLoss_rou (c : LossCause) (g : Gap) : (s.addLoss c g).rou = s.rou := by unfold State.addLoss; split <;> simp
@[simp] theorem State.addLoss_sac_number (c : LossCause) (g : Gap) : (s.addLoss c g).sac.number = s.sac.number := by unfold State.addLoss; split <;> simp
@[simp] theorem State.addLoss_sac_startPos (c : LossCause) (g : Gap) : (s.addLoss c g).sac.startPos = s.sac.startPos := by unfold State.addLoss; split <;> simp
@[simp] theorem State.addLoss_sac_openReason (c : LossCause) (g : Gap) : (s.addLoss c g).sac.openReason = s.sac.openReason := by unfold State.addLoss; split <;> simp
@[simp] theorem State.addLoss_sac_running (c : LossCause) (g : Gap) : (s.addLoss c g).sac.running = s.sac.running := by unfold State.addLoss; split <;> simp
@[simp] theorem State.addLoss_sac_prescaleCount (c : LossCause) (g : Gap) : (s.addLoss c g).sac.prescaleCount = s.sac.prescaleCount := by unfold State.addLoss; split <;> simp
@[simp] theorem State.addLoss_sac_tickCount (c : LossCause) (g : Gap) : (s.addLoss c g).sac.tickCount = s.sac.tickCount := by unfold State.addLoss; split <;> simp
@[simp] theorem State.addLoss_sac_stepCount (c : LossCause) (g : Gap) : (s.addLoss c g).sac.stepCount = s.sac.stepCount := by unfold State.addLoss; split <;> simp
@[simp] theorem State.addLoss_sac_params (c : LossCause) (g : Gap) : (s.addLoss c g).sac.params = s.sac.params := by unfold State.addLoss; split <;> simp
@[simp] theorem State.addLoss_sac_expired (c : LossCause) (g : Gap) : (s.addLoss c g).sac.expired = s.sac.expired := by unfold State.addLoss; split <;> simp
@[simp] theorem State.addLoss_csu_inspection (c : LossCause) (g : Gap) : (s.addLoss c g).csu.inspection = s.csu.inspection := by unfold State.addLoss; split <;> simp
@[simp] theorem State.addLoss_csu_slots (c : LossCause) (g : Gap) : (s.addLoss c g).csu.slots = s.csu.slots := by unfold State.addLoss; split <;> simp
@[simp] theorem State.addLoss_csu_fifo (c : LossCause) (g : Gap) : (s.addLoss c g).csu.fifo = s.csu.fifo := by unfold State.addLoss; split <;> simp
@[simp] theorem State.addLoss_csu_running (c : LossCause) (g : Gap) : (s.addLoss c g).csu.running = s.csu.running := by unfold State.addLoss; split <;> simp
@[simp] theorem State.addLoss_csu_refreshCount (c : LossCause) (g : Gap) : (s.addLoss c g).csu.refreshCount = s.csu.refreshCount := by unfold State.addLoss; split <;> simp
@[simp] theorem State.addLoss_channel (c : LossCause) (g : Gap) (k : Fin 3) : (s.addLoss c g).channel k = s.channel k := by
  simp [State.channel]
@[simp] theorem State.addLoss_slot (c : LossCause) (g : Gap) (k : Fin 8) : (s.addLoss c g).slot k = s.slot k := by
  simp [State.slot]
@[simp] theorem State.addLoss_bridge (c : LossCause) (g : Gap) (k : Fin 4) : (s.addLoss c g).bridge k = s.bridge k := by
  simp [State.bridge]
@[simp] theorem State.addLoss_stopWord (c : LossCause) (g : Gap) (k : Fin 3) : (s.addLoss c g).stopWord k = s.stopWord k := by
  simp [State.stopWord]

/-! ### `State.onChannel` -/

@[simp] theorem State.onChannel_pending (ch : Fin 3) (f : Channel → Channel) : (s.onChannel ch f).pending = s.pending := rfl
@[simp] theorem State.onChannel_porstLow (ch : Fin 3) (f : Channel → Channel) : (s.onChannel ch f).porstLow = s.porstLow := rfl
@[simp] theorem State.onChannel_ctlsel (ch : Fin 3) (f : Channel → Channel) : (s.onChannel ch f).ctlsel = s.ctlsel := rfl
@[simp] theorem State.onChannel_freeCount (ch : Fin 3) (f : Channel → Channel) : (s.onChannel ch f).freeCount = s.freeCount := rfl
@[simp] theorem State.onChannel_lcu (ch : Fin 3) (f : Channel → Channel) : (s.onChannel ch f).lcu = s.lcu := rfl
@[simp] theorem State.onChannel_fdu (ch : Fin 3) (f : Channel → Channel) : (s.onChannel ch f).fdu = s.fdu := rfl
@[simp] theorem State.onChannel_ppl (ch : Fin 3) (f : Channel → Channel) : (s.onChannel ch f).ppl = s.ppl := rfl
@[simp] theorem State.onChannel_cdu (ch : Fin 3) (f : Channel → Channel) : (s.onChannel ch f).cdu = s.cdu := rfl
@[simp] theorem State.onChannel_tru (ch : Fin 3) (f : Channel → Channel) : (s.onChannel ch f).tru = s.tru := rfl
@[simp] theorem State.onChannel_sac (ch : Fin 3) (f : Channel → Channel) : (s.onChannel ch f).sac = s.sac := rfl
@[simp] theorem State.onChannel_csu (ch : Fin 3) (f : Channel → Channel) : (s.onChannel ch f).csu = s.csu := rfl
@[simp] theorem State.onChannel_slot (ch : Fin 3) (f : Channel → Channel) (k : Fin 8) : (s.onChannel ch f).slot k = s.slot k := by
  simp [State.slot]
@[simp] theorem State.onChannel_bridge (ch : Fin 3) (f : Channel → Channel) (k : Fin 4) : (s.onChannel ch f).bridge k = s.bridge k := by
  simp [State.bridge]
@[simp] theorem State.onChannel_stopWord (ch : Fin 3) (f : Channel → Channel) (k : Fin 3) : (s.onChannel ch f).stopWord k = s.stopWord k := by
  simp [State.stopWord]

/-! ### `State.countDrop` -/

@[simp] theorem State.countDrop_pending (ch : Fin 3) : (s.countDrop ch).pending = s.pending := rfl
@[simp] theorem State.countDrop_porstLow (ch : Fin 3) : (s.countDrop ch).porstLow = s.porstLow := rfl
@[simp] theorem State.countDrop_ctlsel (ch : Fin 3) : (s.countDrop ch).ctlsel = s.ctlsel := rfl
@[simp] theorem State.countDrop_freeCount (ch : Fin 3) : (s.countDrop ch).freeCount = s.freeCount := rfl
@[simp] theorem State.countDrop_lcu (ch : Fin 3) : (s.countDrop ch).lcu = s.lcu := rfl
@[simp] theorem State.countDrop_fdu (ch : Fin 3) : (s.countDrop ch).fdu = s.fdu := rfl
@[simp] theorem State.countDrop_ppl (ch : Fin 3) : (s.countDrop ch).ppl = s.ppl := rfl
@[simp] theorem State.countDrop_cdu (ch : Fin 3) : (s.countDrop ch).cdu = s.cdu := rfl
@[simp] theorem State.countDrop_tru (ch : Fin 3) : (s.countDrop ch).tru = s.tru := rfl
@[simp] theorem State.countDrop_rou (ch : Fin 3) : (s.countDrop ch).rou = s.rou := rfl
@[simp] theorem State.countDrop_sac_number (ch : Fin 3) : (s.countDrop ch).sac.number = s.sac.number := rfl
@[simp] theorem State.countDrop_sac_startPos (ch : Fin 3) : (s.countDrop ch).sac.startPos = s.sac.startPos := rfl
@[simp] theorem State.countDrop_sac_openReason (ch : Fin 3) : (s.countDrop ch).sac.openReason = s.sac.openReason := rfl
@[simp] theorem State.countDrop_sac_running (ch : Fin 3) : (s.countDrop ch).sac.running = s.sac.running := rfl
@[simp] theorem State.countDrop_sac_prescaleCount (ch : Fin 3) : (s.countDrop ch).sac.prescaleCount = s.sac.prescaleCount := rfl
@[simp] theorem State.countDrop_sac_tickCount (ch : Fin 3) : (s.countDrop ch).sac.tickCount = s.sac.tickCount := rfl
@[simp] theorem State.countDrop_sac_stepCount (ch : Fin 3) : (s.countDrop ch).sac.stepCount = s.sac.stepCount := rfl
@[simp] theorem State.countDrop_sac_params (ch : Fin 3) : (s.countDrop ch).sac.params = s.sac.params := rfl
@[simp] theorem State.countDrop_sac_expired (ch : Fin 3) : (s.countDrop ch).sac.expired = s.sac.expired := rfl
@[simp] theorem State.countDrop_csu (ch : Fin 3) : (s.countDrop ch).csu = s.csu := rfl
@[simp] theorem State.countDrop_channel (ch : Fin 3) (k : Fin 3) : (s.countDrop ch).channel k = s.channel k := by
  simp [State.channel]
@[simp] theorem State.countDrop_slot (ch : Fin 3) (k : Fin 8) : (s.countDrop ch).slot k = s.slot k := by
  simp [State.slot]
@[simp] theorem State.countDrop_bridge (ch : Fin 3) (k : Fin 4) : (s.countDrop ch).bridge k = s.bridge k := by
  simp [State.bridge]
@[simp] theorem State.countDrop_stopWord (ch : Fin 3) (k : Fin 3) : (s.countDrop ch).stopWord k = s.stopWord k := by
  simp [State.stopWord]

/-! ### `State.produce` -/

@[simp] theorem State.produce_pending (ch : Fin 3) (b : RecordBody) : (s.produce ch b).pending = s.pending := by unfold State.produce; dsimp only; split <;> simp
@[simp] theorem State.produce_porstLow (ch : Fin 3) (b : RecordBody) : (s.produce ch b).porstLow = s.porstLow := by unfold State.produce; dsimp only; split <;> simp
@[simp] theorem State.produce_ctlsel (ch : Fin 3) (b : RecordBody) : (s.produce ch b).ctlsel = s.ctlsel := by unfold State.produce; dsimp only; split <;> simp
@[simp] theorem State.produce_freeCount (ch : Fin 3) (b : RecordBody) : (s.produce ch b).freeCount = s.freeCount := by unfold State.produce; dsimp only; split <;> simp
@[simp] theorem State.produce_lcu (ch : Fin 3) (b : RecordBody) : (s.produce ch b).lcu = s.lcu := by unfold State.produce; dsimp only; split <;> simp
@[simp] theorem State.produce_fdu (ch : Fin 3) (b : RecordBody) : (s.produce ch b).fdu = s.fdu := by unfold State.produce; dsimp only; split <;> simp
@[simp] theorem State.produce_ppl (ch : Fin 3) (b : RecordBody) : (s.produce ch b).ppl = s.ppl := by unfold State.produce; dsimp only; split <;> simp
@[simp] theorem State.produce_cdu (ch : Fin 3) (b : RecordBody) : (s.produce ch b).cdu = s.cdu := by unfold State.produce; dsimp only; split <;> simp
@[simp] theorem State.produce_tru_transit (ch : Fin 3) (b : RecordBody) : (s.produce ch b).tru.transit = s.tru.transit := by unfold State.produce; dsimp only; split <;> simp
@[simp] theorem State.produce_tru_own (ch : Fin 3) (b : RecordBody) : (s.produce ch b).tru.own = s.tru.own := by unfold State.produce; dsimp only; split <;> simp
@[simp] theorem State.produce_tru_waiting (ch : Fin 3) (b : RecordBody) : (s.produce ch b).tru.waiting = s.tru.waiting := by unfold State.produce; dsimp only; split <;> simp
@[simp] theorem State.produce_tru_flight (ch : Fin 3) (b : RecordBody) : (s.produce ch b).tru.flight = s.tru.flight := by unfold State.produce; dsimp only; split <;> simp
@[simp] theorem State.produce_tru_controlBase (ch : Fin 3) (b : RecordBody) : (s.produce ch b).tru.controlBase = s.tru.controlBase := by unfold State.produce; dsimp only; split <;> simp
@[simp] theorem State.produce_tru_params (ch : Fin 3) (b : RecordBody) : (s.produce ch b).tru.params = s.tru.params := by unfold State.produce; dsimp only; split <;> simp
@[simp] theorem State.produce_tru_ackShadow (ch : Fin 3) (b : RecordBody) : (s.produce ch b).tru.ackShadow = s.tru.ackShadow := by unfold State.produce; dsimp only; split <;> simp
@[simp] theorem State.produce_tru_enableShadow (ch : Fin 3) (b : RecordBody) : (s.produce ch b).tru.enableShadow = s.tru.enableShadow := by unfold State.produce; dsimp only; split <;> simp
@[simp] theorem State.produce_tru_stopShadow (ch : Fin 3) (b : RecordBody) : (s.produce ch b).tru.stopShadow = s.tru.stopShadow := by unfold State.produce; dsimp only; split <;> simp
@[simp] theorem State.produce_tru_share (ch : Fin 3) (b : RecordBody) : (s.produce ch b).tru.share = s.tru.share := by unfold State.produce; dsimp only; split <;> simp
@[simp] theorem State.produce_tru_hits (ch : Fin 3) (b : RecordBody) : (s.produce ch b).tru.hits = s.tru.hits := by unfold State.produce; dsimp only; split <;> simp
@[simp] theorem State.produce_tru_answers (ch : Fin 3) (b : RecordBody) : (s.produce ch b).tru.answers = s.tru.answers := by unfold State.produce; dsimp only; split <;> simp
@[simp] theorem State.produce_sac_number (ch : Fin 3) (b : RecordBody) : (s.produce ch b).sac.number = s.sac.number := by unfold State.produce; dsimp only; split <;> simp
@[simp] theorem State.produce_sac_startPos (ch : Fin 3) (b : RecordBody) : (s.produce ch b).sac.startPos = s.sac.startPos := by unfold State.produce; dsimp only; split <;> simp
@[simp] theorem State.produce_sac_openReason (ch : Fin 3) (b : RecordBody) : (s.produce ch b).sac.openReason = s.sac.openReason := by unfold State.produce; dsimp only; split <;> simp
@[simp] theorem State.produce_sac_running (ch : Fin 3) (b : RecordBody) : (s.produce ch b).sac.running = s.sac.running := by unfold State.produce; dsimp only; split <;> simp
@[simp] theorem State.produce_sac_prescaleCount (ch : Fin 3) (b : RecordBody) : (s.produce ch b).sac.prescaleCount = s.sac.prescaleCount := by unfold State.produce; dsimp only; split <;> simp
@[simp] theorem State.produce_sac_tickCount (ch : Fin 3) (b : RecordBody) : (s.produce ch b).sac.tickCount = s.sac.tickCount := by unfold State.produce; dsimp only; split <;> simp
@[simp] theorem State.produce_sac_stepCount (ch : Fin 3) (b : RecordBody) : (s.produce ch b).sac.stepCount = s.sac.stepCount := by unfold State.produce; dsimp only; split <;> simp
@[simp] theorem State.produce_sac_params (ch : Fin 3) (b : RecordBody) : (s.produce ch b).sac.params = s.sac.params := by unfold State.produce; dsimp only; split <;> simp
@[simp] theorem State.produce_sac_expired (ch : Fin 3) (b : RecordBody) : (s.produce ch b).sac.expired = s.sac.expired := by unfold State.produce; dsimp only; split <;> simp
@[simp] theorem State.produce_csu_inspection (ch : Fin 3) (b : RecordBody) : (s.produce ch b).csu.inspection = s.csu.inspection := by unfold State.produce; dsimp only; split <;> simp
@[simp] theorem State.produce_csu_slots (ch : Fin 3) (b : RecordBody) : (s.produce ch b).csu.slots = s.csu.slots := by unfold State.produce; dsimp only; split <;> simp
@[simp] theorem State.produce_csu_fifo (ch : Fin 3) (b : RecordBody) : (s.produce ch b).csu.fifo = s.csu.fifo := by unfold State.produce; dsimp only; split <;> simp
@[simp] theorem State.produce_csu_running (ch : Fin 3) (b : RecordBody) : (s.produce ch b).csu.running = s.csu.running := by unfold State.produce; dsimp only; split <;> simp
@[simp] theorem State.produce_csu_refreshCount (ch : Fin 3) (b : RecordBody) : (s.produce ch b).csu.refreshCount = s.csu.refreshCount := by unfold State.produce; dsimp only; split <;> simp
@[simp] theorem State.produce_slot (ch : Fin 3) (b : RecordBody) (k : Fin 8) : (s.produce ch b).slot k = s.slot k := by
  simp [State.slot]
@[simp] theorem State.produce_bridge (ch : Fin 3) (b : RecordBody) (k : Fin 4) : (s.produce ch b).bridge k = s.bridge k := by
  simp [State.bridge]
@[simp] theorem State.produce_stopWord (ch : Fin 3) (b : RecordBody) (k : Fin 3) : (s.produce ch b).stopWord k = s.stopWord k := by
  simp [State.stopWord]

/-! ### `State.pieceOutcome` -/

@[simp] theorem State.pieceOutcome_pending (p : Piece) (o : PieceOutcome) (i : Option (Fin 4 × Byte × Pos)) (c : Byte) : (s.pieceOutcome p o i c).pending = s.pending := by cases o <;> simp [State.pieceOutcome]
@[simp] theorem State.pieceOutcome_porstLow (p : Piece) (o : PieceOutcome) (i : Option (Fin 4 × Byte × Pos)) (c : Byte) : (s.pieceOutcome p o i c).porstLow = s.porstLow := by cases o <;> simp [State.pieceOutcome]
@[simp] theorem State.pieceOutcome_ctlsel (p : Piece) (o : PieceOutcome) (i : Option (Fin 4 × Byte × Pos)) (c : Byte) : (s.pieceOutcome p o i c).ctlsel = s.ctlsel := by cases o <;> simp [State.pieceOutcome]
@[simp] theorem State.pieceOutcome_freeCount (p : Piece) (o : PieceOutcome) (i : Option (Fin 4 × Byte × Pos)) (c : Byte) : (s.pieceOutcome p o i c).freeCount = s.freeCount := by cases o <;> simp [State.pieceOutcome]
@[simp] theorem State.pieceOutcome_lcu (p : Piece) (o : PieceOutcome) (i : Option (Fin 4 × Byte × Pos)) (c : Byte) : (s.pieceOutcome p o i c).lcu = s.lcu := by cases o <;> simp [State.pieceOutcome]
@[simp] theorem State.pieceOutcome_fdu (p : Piece) (o : PieceOutcome) (i : Option (Fin 4 × Byte × Pos)) (c : Byte) : (s.pieceOutcome p o i c).fdu = s.fdu := by cases o <;> simp [State.pieceOutcome]
@[simp] theorem State.pieceOutcome_ppl (p : Piece) (o : PieceOutcome) (i : Option (Fin 4 × Byte × Pos)) (c : Byte) : (s.pieceOutcome p o i c).ppl = s.ppl := by cases o <;> simp [State.pieceOutcome]
@[simp] theorem State.pieceOutcome_cdu (p : Piece) (o : PieceOutcome) (i : Option (Fin 4 × Byte × Pos)) (c : Byte) : (s.pieceOutcome p o i c).cdu = s.cdu := by cases o <;> simp [State.pieceOutcome]
@[simp] theorem State.pieceOutcome_tru_transit (p : Piece) (o : PieceOutcome) (i : Option (Fin 4 × Byte × Pos)) (c : Byte) : (s.pieceOutcome p o i c).tru.transit = s.tru.transit := by cases o <;> simp [State.pieceOutcome]
@[simp] theorem State.pieceOutcome_tru_own (p : Piece) (o : PieceOutcome) (i : Option (Fin 4 × Byte × Pos)) (c : Byte) : (s.pieceOutcome p o i c).tru.own = s.tru.own := by cases o <;> simp [State.pieceOutcome]
@[simp] theorem State.pieceOutcome_tru_waiting (p : Piece) (o : PieceOutcome) (i : Option (Fin 4 × Byte × Pos)) (c : Byte) : (s.pieceOutcome p o i c).tru.waiting = s.tru.waiting := by cases o <;> simp [State.pieceOutcome]
@[simp] theorem State.pieceOutcome_tru_flight (p : Piece) (o : PieceOutcome) (i : Option (Fin 4 × Byte × Pos)) (c : Byte) : (s.pieceOutcome p o i c).tru.flight = s.tru.flight := by cases o <;> simp [State.pieceOutcome]
@[simp] theorem State.pieceOutcome_tru_controlBase (p : Piece) (o : PieceOutcome) (i : Option (Fin 4 × Byte × Pos)) (c : Byte) : (s.pieceOutcome p o i c).tru.controlBase = s.tru.controlBase := by cases o <;> simp [State.pieceOutcome]
@[simp] theorem State.pieceOutcome_tru_params (p : Piece) (o : PieceOutcome) (i : Option (Fin 4 × Byte × Pos)) (c : Byte) : (s.pieceOutcome p o i c).tru.params = s.tru.params := by cases o <;> simp [State.pieceOutcome]
@[simp] theorem State.pieceOutcome_tru_ackShadow (p : Piece) (o : PieceOutcome) (i : Option (Fin 4 × Byte × Pos)) (c : Byte) : (s.pieceOutcome p o i c).tru.ackShadow = s.tru.ackShadow := by cases o <;> simp [State.pieceOutcome]
@[simp] theorem State.pieceOutcome_tru_enableShadow (p : Piece) (o : PieceOutcome) (i : Option (Fin 4 × Byte × Pos)) (c : Byte) : (s.pieceOutcome p o i c).tru.enableShadow = s.tru.enableShadow := by cases o <;> simp [State.pieceOutcome]
@[simp] theorem State.pieceOutcome_tru_stopShadow (p : Piece) (o : PieceOutcome) (i : Option (Fin 4 × Byte × Pos)) (c : Byte) : (s.pieceOutcome p o i c).tru.stopShadow = s.tru.stopShadow := by cases o <;> simp [State.pieceOutcome]
@[simp] theorem State.pieceOutcome_tru_share (p : Piece) (o : PieceOutcome) (i : Option (Fin 4 × Byte × Pos)) (c : Byte) : (s.pieceOutcome p o i c).tru.share = s.tru.share := by cases o <;> simp [State.pieceOutcome]
@[simp] theorem State.pieceOutcome_tru_hits (p : Piece) (o : PieceOutcome) (i : Option (Fin 4 × Byte × Pos)) (c : Byte) : (s.pieceOutcome p o i c).tru.hits = s.tru.hits := by cases o <;> simp [State.pieceOutcome]
@[simp] theorem State.pieceOutcome_tru_answers (p : Piece) (o : PieceOutcome) (i : Option (Fin 4 × Byte × Pos)) (c : Byte) : (s.pieceOutcome p o i c).tru.answers = s.tru.answers := by cases o <;> simp [State.pieceOutcome]
@[simp] theorem State.pieceOutcome_sac_number (p : Piece) (o : PieceOutcome) (i : Option (Fin 4 × Byte × Pos)) (c : Byte) : (s.pieceOutcome p o i c).sac.number = s.sac.number := by cases o <;> simp [State.pieceOutcome]
@[simp] theorem State.pieceOutcome_sac_startPos (p : Piece) (o : PieceOutcome) (i : Option (Fin 4 × Byte × Pos)) (c : Byte) : (s.pieceOutcome p o i c).sac.startPos = s.sac.startPos := by cases o <;> simp [State.pieceOutcome]
@[simp] theorem State.pieceOutcome_sac_openReason (p : Piece) (o : PieceOutcome) (i : Option (Fin 4 × Byte × Pos)) (c : Byte) : (s.pieceOutcome p o i c).sac.openReason = s.sac.openReason := by cases o <;> simp [State.pieceOutcome]
@[simp] theorem State.pieceOutcome_sac_running (p : Piece) (o : PieceOutcome) (i : Option (Fin 4 × Byte × Pos)) (c : Byte) : (s.pieceOutcome p o i c).sac.running = s.sac.running := by cases o <;> simp [State.pieceOutcome]
@[simp] theorem State.pieceOutcome_sac_prescaleCount (p : Piece) (o : PieceOutcome) (i : Option (Fin 4 × Byte × Pos)) (c : Byte) : (s.pieceOutcome p o i c).sac.prescaleCount = s.sac.prescaleCount := by cases o <;> simp [State.pieceOutcome]
@[simp] theorem State.pieceOutcome_sac_tickCount (p : Piece) (o : PieceOutcome) (i : Option (Fin 4 × Byte × Pos)) (c : Byte) : (s.pieceOutcome p o i c).sac.tickCount = s.sac.tickCount := by cases o <;> simp [State.pieceOutcome]
@[simp] theorem State.pieceOutcome_sac_stepCount (p : Piece) (o : PieceOutcome) (i : Option (Fin 4 × Byte × Pos)) (c : Byte) : (s.pieceOutcome p o i c).sac.stepCount = s.sac.stepCount := by cases o <;> simp [State.pieceOutcome]
@[simp] theorem State.pieceOutcome_sac_params (p : Piece) (o : PieceOutcome) (i : Option (Fin 4 × Byte × Pos)) (c : Byte) : (s.pieceOutcome p o i c).sac.params = s.sac.params := by cases o <;> simp [State.pieceOutcome]
@[simp] theorem State.pieceOutcome_sac_expired (p : Piece) (o : PieceOutcome) (i : Option (Fin 4 × Byte × Pos)) (c : Byte) : (s.pieceOutcome p o i c).sac.expired = s.sac.expired := by cases o <;> simp [State.pieceOutcome]
@[simp] theorem State.pieceOutcome_csu_inspection (p : Piece) (o : PieceOutcome) (i : Option (Fin 4 × Byte × Pos)) (c : Byte) : (s.pieceOutcome p o i c).csu.inspection = s.csu.inspection := by cases o <;> simp [State.pieceOutcome]
@[simp] theorem State.pieceOutcome_csu_slots (p : Piece) (o : PieceOutcome) (i : Option (Fin 4 × Byte × Pos)) (c : Byte) : (s.pieceOutcome p o i c).csu.slots = s.csu.slots := by cases o <;> simp [State.pieceOutcome]
@[simp] theorem State.pieceOutcome_csu_fifo (p : Piece) (o : PieceOutcome) (i : Option (Fin 4 × Byte × Pos)) (c : Byte) : (s.pieceOutcome p o i c).csu.fifo = s.csu.fifo := by cases o <;> simp [State.pieceOutcome]
@[simp] theorem State.pieceOutcome_csu_running (p : Piece) (o : PieceOutcome) (i : Option (Fin 4 × Byte × Pos)) (c : Byte) : (s.pieceOutcome p o i c).csu.running = s.csu.running := by cases o <;> simp [State.pieceOutcome]
@[simp] theorem State.pieceOutcome_csu_refreshCount (p : Piece) (o : PieceOutcome) (i : Option (Fin 4 × Byte × Pos)) (c : Byte) : (s.pieceOutcome p o i c).csu.refreshCount = s.csu.refreshCount := by cases o <;> simp [State.pieceOutcome]
@[simp] theorem State.pieceOutcome_slot (p : Piece) (o : PieceOutcome) (i : Option (Fin 4 × Byte × Pos)) (c : Byte) (k : Fin 8) : (s.pieceOutcome p o i c).slot k = s.slot k := by
  simp [State.slot]
@[simp] theorem State.pieceOutcome_bridge (p : Piece) (o : PieceOutcome) (i : Option (Fin 4 × Byte × Pos)) (c : Byte) (k : Fin 4) : (s.pieceOutcome p o i c).bridge k = s.bridge k := by
  simp [State.bridge]
@[simp] theorem State.pieceOutcome_stopWord (p : Piece) (o : PieceOutcome) (i : Option (Fin 4 × Byte × Pos)) (c : Byte) (k : Fin 3) : (s.pieceOutcome p o i c).stopWord k = s.stopWord k := by
  simp [State.stopWord]

/-! ### `State.onSlot` -/

@[simp] theorem State.onSlot_pending (n : Fin 8) (f : Slot → Slot) : (s.onSlot n f).pending = s.pending := rfl
@[simp] theorem State.onSlot_porstLow (n : Fin 8) (f : Slot → Slot) : (s.onSlot n f).porstLow = s.porstLow := rfl
@[simp] theorem State.onSlot_ctlsel (n : Fin 8) (f : Slot → Slot) : (s.onSlot n f).ctlsel = s.ctlsel := rfl
@[simp] theorem State.onSlot_freeCount (n : Fin 8) (f : Slot → Slot) : (s.onSlot n f).freeCount = s.freeCount := rfl
@[simp] theorem State.onSlot_lcu (n : Fin 8) (f : Slot → Slot) : (s.onSlot n f).lcu = s.lcu := rfl
@[simp] theorem State.onSlot_fdu (n : Fin 8) (f : Slot → Slot) : (s.onSlot n f).fdu = s.fdu := rfl
@[simp] theorem State.onSlot_ppl (n : Fin 8) (f : Slot → Slot) : (s.onSlot n f).ppl = s.ppl := rfl
@[simp] theorem State.onSlot_cdu (n : Fin 8) (f : Slot → Slot) : (s.onSlot n f).cdu = s.cdu := rfl
@[simp] theorem State.onSlot_tru (n : Fin 8) (f : Slot → Slot) : (s.onSlot n f).tru = s.tru := rfl
@[simp] theorem State.onSlot_rou (n : Fin 8) (f : Slot → Slot) : (s.onSlot n f).rou = s.rou := rfl
@[simp] theorem State.onSlot_sac (n : Fin 8) (f : Slot → Slot) : (s.onSlot n f).sac = s.sac := rfl
@[simp] theorem State.onSlot_csu_inspection (n : Fin 8) (f : Slot → Slot) : (s.onSlot n f).csu.inspection = s.csu.inspection := rfl
@[simp] theorem State.onSlot_csu_fifo (n : Fin 8) (f : Slot → Slot) : (s.onSlot n f).csu.fifo = s.csu.fifo := rfl
@[simp] theorem State.onSlot_csu_running (n : Fin 8) (f : Slot → Slot) : (s.onSlot n f).csu.running = s.csu.running := rfl
@[simp] theorem State.onSlot_csu_causes (n : Fin 8) (f : Slot → Slot) : (s.onSlot n f).csu.causes = s.csu.causes := rfl
@[simp] theorem State.onSlot_csu_statusWaiting (n : Fin 8) (f : Slot → Slot) : (s.onSlot n f).csu.statusWaiting = s.csu.statusWaiting := rfl
@[simp] theorem State.onSlot_csu_refreshCount (n : Fin 8) (f : Slot → Slot) : (s.onSlot n f).csu.refreshCount = s.csu.refreshCount := rfl
@[simp] theorem State.onSlot_channel (n : Fin 8) (f : Slot → Slot) (k : Fin 3) : (s.onSlot n f).channel k = s.channel k := by
  simp [State.channel]
@[simp] theorem State.onSlot_bridge (n : Fin 8) (f : Slot → Slot) (k : Fin 4) : (s.onSlot n f).bridge k = s.bridge k := by
  simp [State.bridge]
@[simp] theorem State.onSlot_stopWord (n : Fin 8) (f : Slot → Slot) (k : Fin 3) : (s.onSlot n f).stopWord k = s.stopWord k := by
  simp [State.stopWord]

/-! ### `State.complete` -/

@[simp] theorem State.complete_pending (n : Fin 8) (st : Status) (v : Word) : (s.complete n st v).pending = s.pending := by simp [State.complete]
@[simp] theorem State.complete_porstLow (n : Fin 8) (st : Status) (v : Word) : (s.complete n st v).porstLow = s.porstLow := by simp [State.complete]
@[simp] theorem State.complete_ctlsel (n : Fin 8) (st : Status) (v : Word) : (s.complete n st v).ctlsel = s.ctlsel := by simp [State.complete]
@[simp] theorem State.complete_freeCount (n : Fin 8) (st : Status) (v : Word) : (s.complete n st v).freeCount = s.freeCount := by simp [State.complete]
@[simp] theorem State.complete_lcu (n : Fin 8) (st : Status) (v : Word) : (s.complete n st v).lcu = s.lcu := by simp [State.complete]
@[simp] theorem State.complete_fdu (n : Fin 8) (st : Status) (v : Word) : (s.complete n st v).fdu = s.fdu := by simp [State.complete]
@[simp] theorem State.complete_ppl (n : Fin 8) (st : Status) (v : Word) : (s.complete n st v).ppl = s.ppl := by simp [State.complete]
@[simp] theorem State.complete_cdu (n : Fin 8) (st : Status) (v : Word) : (s.complete n st v).cdu = s.cdu := by simp [State.complete]
@[simp] theorem State.complete_tru_transit (n : Fin 8) (st : Status) (v : Word) : (s.complete n st v).tru.transit = s.tru.transit := by simp [State.complete]
@[simp] theorem State.complete_tru_own (n : Fin 8) (st : Status) (v : Word) : (s.complete n st v).tru.own = s.tru.own := by simp [State.complete]
@[simp] theorem State.complete_tru_waiting (n : Fin 8) (st : Status) (v : Word) : (s.complete n st v).tru.waiting = s.tru.waiting := by simp [State.complete]
@[simp] theorem State.complete_tru_flight (n : Fin 8) (st : Status) (v : Word) : (s.complete n st v).tru.flight = s.tru.flight := by simp [State.complete]
@[simp] theorem State.complete_tru_controlBase (n : Fin 8) (st : Status) (v : Word) : (s.complete n st v).tru.controlBase = s.tru.controlBase := by simp [State.complete]
@[simp] theorem State.complete_tru_params (n : Fin 8) (st : Status) (v : Word) : (s.complete n st v).tru.params = s.tru.params := by simp [State.complete]
@[simp] theorem State.complete_tru_ackShadow (n : Fin 8) (st : Status) (v : Word) : (s.complete n st v).tru.ackShadow = s.tru.ackShadow := by simp [State.complete]
@[simp] theorem State.complete_tru_enableShadow (n : Fin 8) (st : Status) (v : Word) : (s.complete n st v).tru.enableShadow = s.tru.enableShadow := by simp [State.complete]
@[simp] theorem State.complete_tru_stopShadow (n : Fin 8) (st : Status) (v : Word) : (s.complete n st v).tru.stopShadow = s.tru.stopShadow := by simp [State.complete]
@[simp] theorem State.complete_tru_share (n : Fin 8) (st : Status) (v : Word) : (s.complete n st v).tru.share = s.tru.share := by simp [State.complete]
@[simp] theorem State.complete_tru_hits (n : Fin 8) (st : Status) (v : Word) : (s.complete n st v).tru.hits = s.tru.hits := by simp [State.complete]
@[simp] theorem State.complete_tru_answers (n : Fin 8) (st : Status) (v : Word) : (s.complete n st v).tru.answers = s.tru.answers := by simp [State.complete]
@[simp] theorem State.complete_rou (n : Fin 8) (st : Status) (v : Word) : (s.complete n st v).rou = s.rou := by simp [State.complete]
@[simp] theorem State.complete_sac (n : Fin 8) (st : Status) (v : Word) : (s.complete n st v).sac = s.sac := by simp [State.complete]
@[simp] theorem State.complete_csu_inspection (n : Fin 8) (st : Status) (v : Word) : (s.complete n st v).csu.inspection = s.csu.inspection := by simp [State.complete]
@[simp] theorem State.complete_csu_fifo (n : Fin 8) (st : Status) (v : Word) : (s.complete n st v).csu.fifo = s.csu.fifo := by simp [State.complete]
@[simp] theorem State.complete_csu_refreshCount (n : Fin 8) (st : Status) (v : Word) : (s.complete n st v).csu.refreshCount = s.csu.refreshCount := by simp [State.complete]
@[simp] theorem State.complete_channel (n : Fin 8) (st : Status) (v : Word) (k : Fin 3) : (s.complete n st v).channel k = s.channel k := by
  simp [State.channel]
@[simp] theorem State.complete_bridge (n : Fin 8) (st : Status) (v : Word) (k : Fin 4) : (s.complete n st v).bridge k = s.bridge k := by
  simp [State.bridge]
@[simp] theorem State.complete_stopWord (n : Fin 8) (st : Status) (v : Word) (k : Fin 3) : (s.complete n st v).stopWord k = s.stopWord k := by
  simp [State.stopWord]

/-! ### `State.setPhase` -/

@[simp] theorem State.setPhase_pending (n : Fin 8) (p : Phase) : (s.setPhase n p).pending = s.pending := rfl
@[simp] theorem State.setPhase_porstLow (n : Fin 8) (p : Phase) : (s.setPhase n p).porstLow = s.porstLow := rfl
@[simp] theorem State.setPhase_ctlsel (n : Fin 8) (p : Phase) : (s.setPhase n p).ctlsel = s.ctlsel := rfl
@[simp] theorem State.setPhase_freeCount (n : Fin 8) (p : Phase) : (s.setPhase n p).freeCount = s.freeCount := rfl
@[simp] theorem State.setPhase_lcu (n : Fin 8) (p : Phase) : (s.setPhase n p).lcu = s.lcu := rfl
@[simp] theorem State.setPhase_fdu (n : Fin 8) (p : Phase) : (s.setPhase n p).fdu = s.fdu := rfl
@[simp] theorem State.setPhase_ppl (n : Fin 8) (p : Phase) : (s.setPhase n p).ppl = s.ppl := rfl
@[simp] theorem State.setPhase_cdu (n : Fin 8) (p : Phase) : (s.setPhase n p).cdu = s.cdu := rfl
@[simp] theorem State.setPhase_tru (n : Fin 8) (p : Phase) : (s.setPhase n p).tru = s.tru := rfl
@[simp] theorem State.setPhase_rou (n : Fin 8) (p : Phase) : (s.setPhase n p).rou = s.rou := rfl
@[simp] theorem State.setPhase_sac (n : Fin 8) (p : Phase) : (s.setPhase n p).sac = s.sac := rfl
@[simp] theorem State.setPhase_csu_inspection (n : Fin 8) (p : Phase) : (s.setPhase n p).csu.inspection = s.csu.inspection := rfl
@[simp] theorem State.setPhase_csu_slots (n : Fin 8) (p : Phase) : (s.setPhase n p).csu.slots = s.csu.slots := rfl
@[simp] theorem State.setPhase_csu_fifo (n : Fin 8) (p : Phase) : (s.setPhase n p).csu.fifo = s.csu.fifo := rfl
@[simp] theorem State.setPhase_csu_causes (n : Fin 8) (p : Phase) : (s.setPhase n p).csu.causes = s.csu.causes := rfl
@[simp] theorem State.setPhase_csu_statusWaiting (n : Fin 8) (p : Phase) : (s.setPhase n p).csu.statusWaiting = s.csu.statusWaiting := rfl
@[simp] theorem State.setPhase_csu_refreshCount (n : Fin 8) (p : Phase) : (s.setPhase n p).csu.refreshCount = s.csu.refreshCount := rfl
@[simp] theorem State.setPhase_channel (n : Fin 8) (p : Phase) (k : Fin 3) : (s.setPhase n p).channel k = s.channel k := by
  simp [State.channel]
@[simp] theorem State.setPhase_slot (n : Fin 8) (p : Phase) (k : Fin 8) : (s.setPhase n p).slot k = s.slot k := by
  simp [State.slot]
@[simp] theorem State.setPhase_bridge (n : Fin 8) (p : Phase) (k : Fin 4) : (s.setPhase n p).bridge k = s.bridge k := by
  simp [State.bridge]
@[simp] theorem State.setPhase_stopWord (n : Fin 8) (p : Phase) (k : Fin 3) : (s.setPhase n p).stopWord k = s.stopWord k := by
  simp [State.stopWord]

/-! ### `State.completeWith` -/

@[simp] theorem State.completeWith_pending (f : Phase → Bool) (v : Word) : (s.completeWith f v).pending = s.pending := by unfold State.completeWith; split <;> simp
@[simp] theorem State.completeWith_porstLow (f : Phase → Bool) (v : Word) : (s.completeWith f v).porstLow = s.porstLow := by unfold State.completeWith; split <;> simp
@[simp] theorem State.completeWith_ctlsel (f : Phase → Bool) (v : Word) : (s.completeWith f v).ctlsel = s.ctlsel := by unfold State.completeWith; split <;> simp
@[simp] theorem State.completeWith_freeCount (f : Phase → Bool) (v : Word) : (s.completeWith f v).freeCount = s.freeCount := by unfold State.completeWith; split <;> simp
@[simp] theorem State.completeWith_lcu (f : Phase → Bool) (v : Word) : (s.completeWith f v).lcu = s.lcu := by unfold State.completeWith; split <;> simp
@[simp] theorem State.completeWith_fdu (f : Phase → Bool) (v : Word) : (s.completeWith f v).fdu = s.fdu := by unfold State.completeWith; split <;> simp
@[simp] theorem State.completeWith_ppl (f : Phase → Bool) (v : Word) : (s.completeWith f v).ppl = s.ppl := by unfold State.completeWith; split <;> simp
@[simp] theorem State.completeWith_cdu (f : Phase → Bool) (v : Word) : (s.completeWith f v).cdu = s.cdu := by unfold State.completeWith; split <;> simp
@[simp] theorem State.completeWith_tru_transit (f : Phase → Bool) (v : Word) : (s.completeWith f v).tru.transit = s.tru.transit := by unfold State.completeWith; split <;> simp
@[simp] theorem State.completeWith_tru_own (f : Phase → Bool) (v : Word) : (s.completeWith f v).tru.own = s.tru.own := by unfold State.completeWith; split <;> simp
@[simp] theorem State.completeWith_tru_waiting (f : Phase → Bool) (v : Word) : (s.completeWith f v).tru.waiting = s.tru.waiting := by unfold State.completeWith; split <;> simp
@[simp] theorem State.completeWith_tru_flight (f : Phase → Bool) (v : Word) : (s.completeWith f v).tru.flight = s.tru.flight := by unfold State.completeWith; split <;> simp
@[simp] theorem State.completeWith_tru_controlBase (f : Phase → Bool) (v : Word) : (s.completeWith f v).tru.controlBase = s.tru.controlBase := by unfold State.completeWith; split <;> simp
@[simp] theorem State.completeWith_tru_params (f : Phase → Bool) (v : Word) : (s.completeWith f v).tru.params = s.tru.params := by unfold State.completeWith; split <;> simp
@[simp] theorem State.completeWith_tru_ackShadow (f : Phase → Bool) (v : Word) : (s.completeWith f v).tru.ackShadow = s.tru.ackShadow := by unfold State.completeWith; split <;> simp
@[simp] theorem State.completeWith_tru_enableShadow (f : Phase → Bool) (v : Word) : (s.completeWith f v).tru.enableShadow = s.tru.enableShadow := by unfold State.completeWith; split <;> simp
@[simp] theorem State.completeWith_tru_stopShadow (f : Phase → Bool) (v : Word) : (s.completeWith f v).tru.stopShadow = s.tru.stopShadow := by unfold State.completeWith; split <;> simp
@[simp] theorem State.completeWith_tru_share (f : Phase → Bool) (v : Word) : (s.completeWith f v).tru.share = s.tru.share := by unfold State.completeWith; split <;> simp
@[simp] theorem State.completeWith_tru_hits (f : Phase → Bool) (v : Word) : (s.completeWith f v).tru.hits = s.tru.hits := by unfold State.completeWith; split <;> simp
@[simp] theorem State.completeWith_tru_answers (f : Phase → Bool) (v : Word) : (s.completeWith f v).tru.answers = s.tru.answers := by unfold State.completeWith; split <;> simp
@[simp] theorem State.completeWith_rou (f : Phase → Bool) (v : Word) : (s.completeWith f v).rou = s.rou := by unfold State.completeWith; split <;> simp
@[simp] theorem State.completeWith_sac (f : Phase → Bool) (v : Word) : (s.completeWith f v).sac = s.sac := by unfold State.completeWith; split <;> simp
@[simp] theorem State.completeWith_csu_inspection (f : Phase → Bool) (v : Word) : (s.completeWith f v).csu.inspection = s.csu.inspection := by unfold State.completeWith; split <;> simp
@[simp] theorem State.completeWith_csu_fifo (f : Phase → Bool) (v : Word) : (s.completeWith f v).csu.fifo = s.csu.fifo := by unfold State.completeWith; split <;> simp
@[simp] theorem State.completeWith_csu_refreshCount (f : Phase → Bool) (v : Word) : (s.completeWith f v).csu.refreshCount = s.csu.refreshCount := by unfold State.completeWith; split <;> simp
@[simp] theorem State.completeWith_channel (f : Phase → Bool) (v : Word) (k : Fin 3) : (s.completeWith f v).channel k = s.channel k := by
  simp [State.channel]
@[simp] theorem State.completeWith_bridge (f : Phase → Bool) (v : Word) (k : Fin 4) : (s.completeWith f v).bridge k = s.bridge k := by
  simp [State.bridge]
@[simp] theorem State.completeWith_stopWord (f : Phase → Bool) (v : Word) (k : Fin 3) : (s.completeWith f v).stopWord k = s.stopWord k := by
  simp [State.stopWord]

/-! ### `State.placeAll` -/

@[simp] theorem State.placeAll_pending : (s.placeAll).pending = s.pending := rfl
@[simp] theorem State.placeAll_porstLow : (s.placeAll).porstLow = s.porstLow := rfl
@[simp] theorem State.placeAll_ctlsel : (s.placeAll).ctlsel = s.ctlsel := rfl
@[simp] theorem State.placeAll_freeCount : (s.placeAll).freeCount = s.freeCount := rfl
@[simp] theorem State.placeAll_lcu : (s.placeAll).lcu = s.lcu := rfl
@[simp] theorem State.placeAll_fdu : (s.placeAll).fdu = s.fdu := rfl
@[simp] theorem State.placeAll_ppl : (s.placeAll).ppl = s.ppl := rfl
@[simp] theorem State.placeAll_cdu : (s.placeAll).cdu = s.cdu := rfl
@[simp] theorem State.placeAll_tru_transit : (s.placeAll).tru.transit = s.tru.transit := rfl
@[simp] theorem State.placeAll_tru_flight : (s.placeAll).tru.flight = s.tru.flight := rfl
@[simp] theorem State.placeAll_tru_controlBase : (s.placeAll).tru.controlBase = s.tru.controlBase := rfl
@[simp] theorem State.placeAll_tru_params : (s.placeAll).tru.params = s.tru.params := rfl
@[simp] theorem State.placeAll_tru_ackShadow : (s.placeAll).tru.ackShadow = s.tru.ackShadow := rfl
@[simp] theorem State.placeAll_tru_enableShadow : (s.placeAll).tru.enableShadow = s.tru.enableShadow := rfl
@[simp] theorem State.placeAll_tru_stopShadow : (s.placeAll).tru.stopShadow = s.tru.stopShadow := rfl
@[simp] theorem State.placeAll_tru_share : (s.placeAll).tru.share = s.tru.share := rfl
@[simp] theorem State.placeAll_tru_hits : (s.placeAll).tru.hits = s.tru.hits := rfl
@[simp] theorem State.placeAll_tru_answers : (s.placeAll).tru.answers = s.tru.answers := rfl
@[simp] theorem State.placeAll_rou : (s.placeAll).rou = s.rou := rfl
@[simp] theorem State.placeAll_sac : (s.placeAll).sac = s.sac := rfl
@[simp] theorem State.placeAll_csu : (s.placeAll).csu = s.csu := rfl
@[simp] theorem State.placeAll_channel (k : Fin 3) : (s.placeAll).channel k = s.channel k := by
  simp [State.channel]
@[simp] theorem State.placeAll_slot (k : Fin 8) : (s.placeAll).slot k = s.slot k := by
  simp [State.slot]
@[simp] theorem State.placeAll_bridge (k : Fin 4) : (s.placeAll).bridge k = s.bridge k := by
  simp [State.bridge]
@[simp] theorem State.placeAll_stopWord (k : Fin 3) : (s.placeAll).stopWord k = s.stopWord k := by
  simp [State.stopWord]

/-! ### `State.runs` -/

@[simp] theorem State.runs_pending (n : Fin 8) (p : Phase) : (s.runs n p).pending = s.pending := rfl
@[simp] theorem State.runs_porstLow (n : Fin 8) (p : Phase) : (s.runs n p).porstLow = s.porstLow := rfl
@[simp] theorem State.runs_ctlsel (n : Fin 8) (p : Phase) : (s.runs n p).ctlsel = s.ctlsel := rfl
@[simp] theorem State.runs_freeCount (n : Fin 8) (p : Phase) : (s.runs n p).freeCount = s.freeCount := rfl
@[simp] theorem State.runs_lcu (n : Fin 8) (p : Phase) : (s.runs n p).lcu = s.lcu := rfl
@[simp] theorem State.runs_fdu (n : Fin 8) (p : Phase) : (s.runs n p).fdu = s.fdu := rfl
@[simp] theorem State.runs_ppl (n : Fin 8) (p : Phase) : (s.runs n p).ppl = s.ppl := rfl
@[simp] theorem State.runs_cdu (n : Fin 8) (p : Phase) : (s.runs n p).cdu = s.cdu := rfl
@[simp] theorem State.runs_tru (n : Fin 8) (p : Phase) : (s.runs n p).tru = s.tru := rfl
@[simp] theorem State.runs_rou (n : Fin 8) (p : Phase) : (s.runs n p).rou = s.rou := rfl
@[simp] theorem State.runs_sac (n : Fin 8) (p : Phase) : (s.runs n p).sac = s.sac := rfl
@[simp] theorem State.runs_csu_inspection (n : Fin 8) (p : Phase) : (s.runs n p).csu.inspection = s.csu.inspection := rfl
@[simp] theorem State.runs_csu_slots (n : Fin 8) (p : Phase) : (s.runs n p).csu.slots = s.csu.slots := rfl
@[simp] theorem State.runs_csu_fifo (n : Fin 8) (p : Phase) : (s.runs n p).csu.fifo = s.csu.fifo := rfl
@[simp] theorem State.runs_csu_causes (n : Fin 8) (p : Phase) : (s.runs n p).csu.causes = s.csu.causes := rfl
@[simp] theorem State.runs_csu_statusWaiting (n : Fin 8) (p : Phase) : (s.runs n p).csu.statusWaiting = s.csu.statusWaiting := rfl
@[simp] theorem State.runs_csu_refreshCount (n : Fin 8) (p : Phase) : (s.runs n p).csu.refreshCount = s.csu.refreshCount := rfl
@[simp] theorem State.runs_channel (n : Fin 8) (p : Phase) (k : Fin 3) : (s.runs n p).channel k = s.channel k := by
  simp [State.channel]
@[simp] theorem State.runs_slot (n : Fin 8) (p : Phase) (k : Fin 8) : (s.runs n p).slot k = s.slot k := by
  simp [State.slot]
@[simp] theorem State.runs_bridge (n : Fin 8) (p : Phase) (k : Fin 4) : (s.runs n p).bridge k = s.bridge k := by
  simp [State.bridge]
@[simp] theorem State.runs_stopWord (n : Fin 8) (p : Phase) (k : Fin 3) : (s.runs n p).stopWord k = s.stopWord k := by
  simp [State.stopWord]

/-! ### `State.takeCommand` -/

@[simp] theorem State.takeCommand_pending (n : Fin 8) : (s.takeCommand n).pending = s.pending := rfl
@[simp] theorem State.takeCommand_porstLow (n : Fin 8) : (s.takeCommand n).porstLow = s.porstLow := rfl
@[simp] theorem State.takeCommand_ctlsel (n : Fin 8) : (s.takeCommand n).ctlsel = s.ctlsel := rfl
@[simp] theorem State.takeCommand_freeCount (n : Fin 8) : (s.takeCommand n).freeCount = s.freeCount := rfl
@[simp] theorem State.takeCommand_lcu (n : Fin 8) : (s.takeCommand n).lcu = s.lcu := rfl
@[simp] theorem State.takeCommand_fdu (n : Fin 8) : (s.takeCommand n).fdu = s.fdu := rfl
@[simp] theorem State.takeCommand_ppl (n : Fin 8) : (s.takeCommand n).ppl = s.ppl := rfl
@[simp] theorem State.takeCommand_cdu (n : Fin 8) : (s.takeCommand n).cdu = s.cdu := rfl
@[simp] theorem State.takeCommand_tru (n : Fin 8) : (s.takeCommand n).tru = s.tru := rfl
@[simp] theorem State.takeCommand_rou (n : Fin 8) : (s.takeCommand n).rou = s.rou := rfl
@[simp] theorem State.takeCommand_sac (n : Fin 8) : (s.takeCommand n).sac = s.sac := rfl
@[simp] theorem State.takeCommand_csu_inspection (n : Fin 8) : (s.takeCommand n).csu.inspection = s.csu.inspection := rfl
@[simp] theorem State.takeCommand_csu_running (n : Fin 8) : (s.takeCommand n).csu.running = s.csu.running := rfl
@[simp] theorem State.takeCommand_csu_causes (n : Fin 8) : (s.takeCommand n).csu.causes = s.csu.causes := rfl
@[simp] theorem State.takeCommand_csu_statusWaiting (n : Fin 8) : (s.takeCommand n).csu.statusWaiting = s.csu.statusWaiting := rfl
@[simp] theorem State.takeCommand_csu_refreshCount (n : Fin 8) : (s.takeCommand n).csu.refreshCount = s.csu.refreshCount := rfl
@[simp] theorem State.takeCommand_channel (n : Fin 8) (k : Fin 3) : (s.takeCommand n).channel k = s.channel k := by
  simp [State.channel]
@[simp] theorem State.takeCommand_bridge (n : Fin 8) (k : Fin 4) : (s.takeCommand n).bridge k = s.bridge k := by
  simp [State.bridge]
@[simp] theorem State.takeCommand_stopWord (n : Fin 8) (k : Fin 3) : (s.takeCommand n).stopWord k = s.stopWord k := by
  simp [State.stopWord]

/-! ### `State.completeTables` -/

@[simp] theorem State.completeTables_pending : (s.completeTables).pending = s.pending := by unfold State.completeTables; (repeat' split) <;> simp
@[simp] theorem State.completeTables_porstLow : (s.completeTables).porstLow = s.porstLow := by unfold State.completeTables; (repeat' split) <;> simp
@[simp] theorem State.completeTables_ctlsel : (s.completeTables).ctlsel = s.ctlsel := by unfold State.completeTables; (repeat' split) <;> simp
@[simp] theorem State.completeTables_freeCount : (s.completeTables).freeCount = s.freeCount := by unfold State.completeTables; (repeat' split) <;> simp
@[simp] theorem State.completeTables_lcu : (s.completeTables).lcu = s.lcu := by unfold State.completeTables; (repeat' split) <;> simp
@[simp] theorem State.completeTables_fdu : (s.completeTables).fdu = s.fdu := by unfold State.completeTables; (repeat' split) <;> simp
@[simp] theorem State.completeTables_ppl : (s.completeTables).ppl = s.ppl := by unfold State.completeTables; (repeat' split) <;> simp
@[simp] theorem State.completeTables_cdu : (s.completeTables).cdu = s.cdu := by unfold State.completeTables; (repeat' split) <;> simp
@[simp] theorem State.completeTables_tru_transit : (s.completeTables).tru.transit = s.tru.transit := by unfold State.completeTables; (repeat' split) <;> simp
@[simp] theorem State.completeTables_tru_own : (s.completeTables).tru.own = s.tru.own := by unfold State.completeTables; (repeat' split) <;> simp
@[simp] theorem State.completeTables_tru_waiting : (s.completeTables).tru.waiting = s.tru.waiting := by unfold State.completeTables; (repeat' split) <;> simp
@[simp] theorem State.completeTables_tru_flight : (s.completeTables).tru.flight = s.tru.flight := by unfold State.completeTables; (repeat' split) <;> simp
@[simp] theorem State.completeTables_tru_controlBase : (s.completeTables).tru.controlBase = s.tru.controlBase := by unfold State.completeTables; (repeat' split) <;> simp
@[simp] theorem State.completeTables_tru_params : (s.completeTables).tru.params = s.tru.params := by unfold State.completeTables; (repeat' split) <;> simp
@[simp] theorem State.completeTables_tru_ackShadow : (s.completeTables).tru.ackShadow = s.tru.ackShadow := by unfold State.completeTables; (repeat' split) <;> simp
@[simp] theorem State.completeTables_tru_enableShadow : (s.completeTables).tru.enableShadow = s.tru.enableShadow := by unfold State.completeTables; (repeat' split) <;> simp
@[simp] theorem State.completeTables_tru_stopShadow : (s.completeTables).tru.stopShadow = s.tru.stopShadow := by unfold State.completeTables; (repeat' split) <;> simp
@[simp] theorem State.completeTables_tru_share : (s.completeTables).tru.share = s.tru.share := by unfold State.completeTables; (repeat' split) <;> simp
@[simp] theorem State.completeTables_tru_hits : (s.completeTables).tru.hits = s.tru.hits := by unfold State.completeTables; (repeat' split) <;> simp
@[simp] theorem State.completeTables_tru_answers : (s.completeTables).tru.answers = s.tru.answers := by unfold State.completeTables; (repeat' split) <;> simp
@[simp] theorem State.completeTables_rou : (s.completeTables).rou = s.rou := by unfold State.completeTables; (repeat' split) <;> simp
@[simp] theorem State.completeTables_sac : (s.completeTables).sac = s.sac := by unfold State.completeTables; (repeat' split) <;> simp
@[simp] theorem State.completeTables_csu_inspection : (s.completeTables).csu.inspection = s.csu.inspection := by unfold State.completeTables; (repeat' split) <;> simp
@[simp] theorem State.completeTables_csu_fifo : (s.completeTables).csu.fifo = s.csu.fifo := by unfold State.completeTables; (repeat' split) <;> simp
@[simp] theorem State.completeTables_csu_refreshCount : (s.completeTables).csu.refreshCount = s.csu.refreshCount := by unfold State.completeTables; (repeat' split) <;> simp
@[simp] theorem State.completeTables_channel (k : Fin 3) : (s.completeTables).channel k = s.channel k := by
  simp [State.channel]
@[simp] theorem State.completeTables_bridge (k : Fin 4) : (s.completeTables).bridge k = s.bridge k := by
  simp [State.bridge]
@[simp] theorem State.completeTables_stopWord (k : Fin 3) : (s.completeTables).stopWord k = s.stopWord k := by
  simp [State.stopWord]

/-! ### `State.completeReference` -/

@[simp] theorem State.completeReference_pending : (s.completeReference).pending = s.pending := by unfold State.completeReference; split <;> simp
@[simp] theorem State.completeReference_porstLow : (s.completeReference).porstLow = s.porstLow := by unfold State.completeReference; split <;> simp
@[simp] theorem State.completeReference_ctlsel : (s.completeReference).ctlsel = s.ctlsel := by unfold State.completeReference; split <;> simp
@[simp] theorem State.completeReference_freeCount : (s.completeReference).freeCount = s.freeCount := by unfold State.completeReference; split <;> simp
@[simp] theorem State.completeReference_lcu : (s.completeReference).lcu = s.lcu := by unfold State.completeReference; split <;> simp
@[simp] theorem State.completeReference_fdu : (s.completeReference).fdu = s.fdu := by unfold State.completeReference; split <;> simp
@[simp] theorem State.completeReference_ppl : (s.completeReference).ppl = s.ppl := by unfold State.completeReference; split <;> simp
@[simp] theorem State.completeReference_cdu : (s.completeReference).cdu = s.cdu := by unfold State.completeReference; split <;> simp
@[simp] theorem State.completeReference_tru_transit : (s.completeReference).tru.transit = s.tru.transit := by unfold State.completeReference; split <;> simp
@[simp] theorem State.completeReference_tru_own : (s.completeReference).tru.own = s.tru.own := by unfold State.completeReference; split <;> simp
@[simp] theorem State.completeReference_tru_waiting : (s.completeReference).tru.waiting = s.tru.waiting := by unfold State.completeReference; split <;> simp
@[simp] theorem State.completeReference_tru_flight : (s.completeReference).tru.flight = s.tru.flight := by unfold State.completeReference; split <;> simp
@[simp] theorem State.completeReference_tru_controlBase : (s.completeReference).tru.controlBase = s.tru.controlBase := by unfold State.completeReference; split <;> simp
@[simp] theorem State.completeReference_tru_params : (s.completeReference).tru.params = s.tru.params := by unfold State.completeReference; split <;> simp
@[simp] theorem State.completeReference_tru_ackShadow : (s.completeReference).tru.ackShadow = s.tru.ackShadow := by unfold State.completeReference; split <;> simp
@[simp] theorem State.completeReference_tru_enableShadow : (s.completeReference).tru.enableShadow = s.tru.enableShadow := by unfold State.completeReference; split <;> simp
@[simp] theorem State.completeReference_tru_stopShadow : (s.completeReference).tru.stopShadow = s.tru.stopShadow := by unfold State.completeReference; split <;> simp
@[simp] theorem State.completeReference_tru_share : (s.completeReference).tru.share = s.tru.share := by unfold State.completeReference; split <;> simp
@[simp] theorem State.completeReference_tru_hits : (s.completeReference).tru.hits = s.tru.hits := by unfold State.completeReference; split <;> simp
@[simp] theorem State.completeReference_tru_answers : (s.completeReference).tru.answers = s.tru.answers := by unfold State.completeReference; split <;> simp
@[simp] theorem State.completeReference_rou : (s.completeReference).rou = s.rou := by unfold State.completeReference; split <;> simp
@[simp] theorem State.completeReference_sac : (s.completeReference).sac = s.sac := by unfold State.completeReference; split <;> simp
@[simp] theorem State.completeReference_csu_inspection : (s.completeReference).csu.inspection = s.csu.inspection := by unfold State.completeReference; split <;> simp
@[simp] theorem State.completeReference_csu_fifo : (s.completeReference).csu.fifo = s.csu.fifo := by unfold State.completeReference; split <;> simp
@[simp] theorem State.completeReference_csu_refreshCount : (s.completeReference).csu.refreshCount = s.csu.refreshCount := by unfold State.completeReference; split <;> simp
@[simp] theorem State.completeReference_channel (k : Fin 3) : (s.completeReference).channel k = s.channel k := by
  simp [State.channel]
@[simp] theorem State.completeReference_bridge (k : Fin 4) : (s.completeReference).bridge k = s.bridge k := by
  simp [State.bridge]
@[simp] theorem State.completeReference_stopWord (k : Fin 3) : (s.completeReference).stopWord k = s.stopWord k := by
  simp [State.stopWord]

/-! ### `State.completeLoads` -/

@[simp] theorem State.completeLoads_pending : (s.completeLoads).pending = s.pending := by simp [State.completeLoads]
@[simp] theorem State.completeLoads_porstLow : (s.completeLoads).porstLow = s.porstLow := by simp [State.completeLoads]
@[simp] theorem State.completeLoads_ctlsel : (s.completeLoads).ctlsel = s.ctlsel := by simp [State.completeLoads]
@[simp] theorem State.completeLoads_freeCount : (s.completeLoads).freeCount = s.freeCount := by simp [State.completeLoads]
@[simp] theorem State.completeLoads_lcu : (s.completeLoads).lcu = s.lcu := by simp [State.completeLoads]
@[simp] theorem State.completeLoads_fdu : (s.completeLoads).fdu = s.fdu := by simp [State.completeLoads]
@[simp] theorem State.completeLoads_ppl : (s.completeLoads).ppl = s.ppl := by simp [State.completeLoads]
@[simp] theorem State.completeLoads_cdu : (s.completeLoads).cdu = s.cdu := by simp [State.completeLoads]
@[simp] theorem State.completeLoads_tru_transit : (s.completeLoads).tru.transit = s.tru.transit := by simp [State.completeLoads]
@[simp] theorem State.completeLoads_tru_own : (s.completeLoads).tru.own = s.tru.own := by simp [State.completeLoads]
@[simp] theorem State.completeLoads_tru_waiting : (s.completeLoads).tru.waiting = s.tru.waiting := by simp [State.completeLoads]
@[simp] theorem State.completeLoads_tru_flight : (s.completeLoads).tru.flight = s.tru.flight := by simp [State.completeLoads]
@[simp] theorem State.completeLoads_tru_controlBase : (s.completeLoads).tru.controlBase = s.tru.controlBase := by simp [State.completeLoads]
@[simp] theorem State.completeLoads_tru_params : (s.completeLoads).tru.params = s.tru.params := by simp [State.completeLoads]
@[simp] theorem State.completeLoads_tru_ackShadow : (s.completeLoads).tru.ackShadow = s.tru.ackShadow := by simp [State.completeLoads]
@[simp] theorem State.completeLoads_tru_enableShadow : (s.completeLoads).tru.enableShadow = s.tru.enableShadow := by simp [State.completeLoads]
@[simp] theorem State.completeLoads_tru_stopShadow : (s.completeLoads).tru.stopShadow = s.tru.stopShadow := by simp [State.completeLoads]
@[simp] theorem State.completeLoads_tru_share : (s.completeLoads).tru.share = s.tru.share := by simp [State.completeLoads]
@[simp] theorem State.completeLoads_tru_hits : (s.completeLoads).tru.hits = s.tru.hits := by simp [State.completeLoads]
@[simp] theorem State.completeLoads_tru_answers : (s.completeLoads).tru.answers = s.tru.answers := by simp [State.completeLoads]
@[simp] theorem State.completeLoads_rou : (s.completeLoads).rou = s.rou := by simp [State.completeLoads]
@[simp] theorem State.completeLoads_sac : (s.completeLoads).sac = s.sac := by simp [State.completeLoads]
@[simp] theorem State.completeLoads_csu_inspection : (s.completeLoads).csu.inspection = s.csu.inspection := by simp [State.completeLoads]
@[simp] theorem State.completeLoads_csu_fifo : (s.completeLoads).csu.fifo = s.csu.fifo := by simp [State.completeLoads]
@[simp] theorem State.completeLoads_csu_refreshCount : (s.completeLoads).csu.refreshCount = s.csu.refreshCount := by simp [State.completeLoads]
@[simp] theorem State.completeLoads_channel (k : Fin 3) : (s.completeLoads).channel k = s.channel k := by
  simp [State.channel]
@[simp] theorem State.completeLoads_bridge (k : Fin 4) : (s.completeLoads).bridge k = s.bridge k := by
  simp [State.bridge]
@[simp] theorem State.completeLoads_stopWord (k : Fin 3) : (s.completeLoads).stopWord k = s.stopWord k := by
  simp [State.stopWord]

/-! ### `State.writeNext` -/

@[simp] theorem State.writeNext_pending (ch : Fin 3) : (s.writeNext ch).pending = s.pending := by unfold State.writeNext; dsimp only; (repeat' split) <;> simp
@[simp] theorem State.writeNext_porstLow (ch : Fin 3) : (s.writeNext ch).porstLow = s.porstLow := by unfold State.writeNext; dsimp only; (repeat' split) <;> simp
@[simp] theorem State.writeNext_ctlsel (ch : Fin 3) : (s.writeNext ch).ctlsel = s.ctlsel := by unfold State.writeNext; dsimp only; (repeat' split) <;> simp
@[simp] theorem State.writeNext_freeCount (ch : Fin 3) : (s.writeNext ch).freeCount = s.freeCount := by unfold State.writeNext; dsimp only; (repeat' split) <;> simp
@[simp] theorem State.writeNext_lcu (ch : Fin 3) : (s.writeNext ch).lcu = s.lcu := by unfold State.writeNext; dsimp only; (repeat' split) <;> simp
@[simp] theorem State.writeNext_fdu (ch : Fin 3) : (s.writeNext ch).fdu = s.fdu := by unfold State.writeNext; dsimp only; (repeat' split) <;> simp
@[simp] theorem State.writeNext_ppl (ch : Fin 3) : (s.writeNext ch).ppl = s.ppl := by unfold State.writeNext; dsimp only; (repeat' split) <;> simp
@[simp] theorem State.writeNext_cdu (ch : Fin 3) : (s.writeNext ch).cdu = s.cdu := by unfold State.writeNext; dsimp only; (repeat' split) <;> simp
@[simp] theorem State.writeNext_tru_transit (ch : Fin 3) : (s.writeNext ch).tru.transit = s.tru.transit := by unfold State.writeNext; dsimp only; (repeat' split) <;> simp
@[simp] theorem State.writeNext_tru_own (ch : Fin 3) : (s.writeNext ch).tru.own = s.tru.own := by unfold State.writeNext; dsimp only; (repeat' split) <;> simp
@[simp] theorem State.writeNext_tru_waiting (ch : Fin 3) : (s.writeNext ch).tru.waiting = s.tru.waiting := by unfold State.writeNext; dsimp only; (repeat' split) <;> simp
@[simp] theorem State.writeNext_tru_flight (ch : Fin 3) : (s.writeNext ch).tru.flight = s.tru.flight := by unfold State.writeNext; dsimp only; (repeat' split) <;> simp
@[simp] theorem State.writeNext_tru_controlBase (ch : Fin 3) : (s.writeNext ch).tru.controlBase = s.tru.controlBase := by unfold State.writeNext; dsimp only; (repeat' split) <;> simp
@[simp] theorem State.writeNext_tru_params (ch : Fin 3) : (s.writeNext ch).tru.params = s.tru.params := by unfold State.writeNext; dsimp only; (repeat' split) <;> simp
@[simp] theorem State.writeNext_tru_ackShadow (ch : Fin 3) : (s.writeNext ch).tru.ackShadow = s.tru.ackShadow := by unfold State.writeNext; dsimp only; (repeat' split) <;> simp
@[simp] theorem State.writeNext_tru_enableShadow (ch : Fin 3) : (s.writeNext ch).tru.enableShadow = s.tru.enableShadow := by unfold State.writeNext; dsimp only; (repeat' split) <;> simp
@[simp] theorem State.writeNext_tru_stopShadow (ch : Fin 3) : (s.writeNext ch).tru.stopShadow = s.tru.stopShadow := by unfold State.writeNext; dsimp only; (repeat' split) <;> simp
@[simp] theorem State.writeNext_tru_share (ch : Fin 3) : (s.writeNext ch).tru.share = s.tru.share := by unfold State.writeNext; dsimp only; (repeat' split) <;> simp
@[simp] theorem State.writeNext_tru_hits (ch : Fin 3) : (s.writeNext ch).tru.hits = s.tru.hits := by unfold State.writeNext; dsimp only; (repeat' split) <;> simp
@[simp] theorem State.writeNext_tru_answers (ch : Fin 3) : (s.writeNext ch).tru.answers = s.tru.answers := by unfold State.writeNext; dsimp only; (repeat' split) <;> simp
@[simp] theorem State.writeNext_sac (ch : Fin 3) : (s.writeNext ch).sac = s.sac := by unfold State.writeNext; dsimp only; (repeat' split) <;> simp
@[simp] theorem State.writeNext_csu (ch : Fin 3) : (s.writeNext ch).csu = s.csu := by unfold State.writeNext; dsimp only; (repeat' split) <;> simp
@[simp] theorem State.writeNext_slot (ch : Fin 3) (k : Fin 8) : (s.writeNext ch).slot k = s.slot k := by
  simp [State.slot]
@[simp] theorem State.writeNext_bridge (ch : Fin 3) (k : Fin 4) : (s.writeNext ch).bridge k = s.bridge k := by
  simp [State.bridge]
@[simp] theorem State.writeNext_stopWord (ch : Fin 3) (k : Fin 3) : (s.writeNext ch).stopWord k = s.stopWord k := by
  simp [State.stopWord]

/-! ### `State.writeAll` -/

@[simp] theorem State.writeAll_pending : (s.writeAll).pending = s.pending := by simp [State.writeAll]
@[simp] theorem State.writeAll_porstLow : (s.writeAll).porstLow = s.porstLow := by simp [State.writeAll]
@[simp] theorem State.writeAll_ctlsel : (s.writeAll).ctlsel = s.ctlsel := by simp [State.writeAll]
@[simp] theorem State.writeAll_freeCount : (s.writeAll).freeCount = s.freeCount := by simp [State.writeAll]
@[simp] theorem State.writeAll_lcu : (s.writeAll).lcu = s.lcu := by simp [State.writeAll]
@[simp] theorem State.writeAll_fdu : (s.writeAll).fdu = s.fdu := by simp [State.writeAll]
@[simp] theorem State.writeAll_ppl : (s.writeAll).ppl = s.ppl := by simp [State.writeAll]
@[simp] theorem State.writeAll_cdu : (s.writeAll).cdu = s.cdu := by simp [State.writeAll]
@[simp] theorem State.writeAll_tru_transit : (s.writeAll).tru.transit = s.tru.transit := by simp [State.writeAll]
@[simp] theorem State.writeAll_tru_own : (s.writeAll).tru.own = s.tru.own := by simp [State.writeAll]
@[simp] theorem State.writeAll_tru_waiting : (s.writeAll).tru.waiting = s.tru.waiting := by simp [State.writeAll]
@[simp] theorem State.writeAll_tru_flight : (s.writeAll).tru.flight = s.tru.flight := by simp [State.writeAll]
@[simp] theorem State.writeAll_tru_controlBase : (s.writeAll).tru.controlBase = s.tru.controlBase := by simp [State.writeAll]
@[simp] theorem State.writeAll_tru_params : (s.writeAll).tru.params = s.tru.params := by simp [State.writeAll]
@[simp] theorem State.writeAll_tru_ackShadow : (s.writeAll).tru.ackShadow = s.tru.ackShadow := by simp [State.writeAll]
@[simp] theorem State.writeAll_tru_enableShadow : (s.writeAll).tru.enableShadow = s.tru.enableShadow := by simp [State.writeAll]
@[simp] theorem State.writeAll_tru_stopShadow : (s.writeAll).tru.stopShadow = s.tru.stopShadow := by simp [State.writeAll]
@[simp] theorem State.writeAll_tru_share : (s.writeAll).tru.share = s.tru.share := by simp [State.writeAll]
@[simp] theorem State.writeAll_tru_hits : (s.writeAll).tru.hits = s.tru.hits := by simp [State.writeAll]
@[simp] theorem State.writeAll_tru_answers : (s.writeAll).tru.answers = s.tru.answers := by simp [State.writeAll]
@[simp] theorem State.writeAll_sac : (s.writeAll).sac = s.sac := by simp [State.writeAll]
@[simp] theorem State.writeAll_csu : (s.writeAll).csu = s.csu := by simp [State.writeAll]
@[simp] theorem State.writeAll_slot (k : Fin 8) : (s.writeAll).slot k = s.slot k := by
  simp [State.slot]
@[simp] theorem State.writeAll_bridge (k : Fin 4) : (s.writeAll).bridge k = s.bridge k := by
  simp [State.bridge]
@[simp] theorem State.writeAll_stopWord (k : Fin 3) : (s.writeAll).stopWord k = s.stopWord k := by
  simp [State.stopWord]

/-! ### `State.classifyCandidate` -/

@[simp] theorem State.classifyCandidate_pending : (s.classifyCandidate).pending = s.pending := rfl
@[simp] theorem State.classifyCandidate_porstLow : (s.classifyCandidate).porstLow = s.porstLow := rfl
@[simp] theorem State.classifyCandidate_ctlsel : (s.classifyCandidate).ctlsel = s.ctlsel := rfl
@[simp] theorem State.classifyCandidate_freeCount : (s.classifyCandidate).freeCount = s.freeCount := rfl
@[simp] theorem State.classifyCandidate_lcu : (s.classifyCandidate).lcu = s.lcu := rfl
@[simp] theorem State.classifyCandidate_fdu : (s.classifyCandidate).fdu = s.fdu := rfl
@[simp] theorem State.classifyCandidate_ppl : (s.classifyCandidate).ppl = s.ppl := rfl
@[simp] theorem State.classifyCandidate_cdu : (s.classifyCandidate).cdu = s.cdu := rfl
@[simp] theorem State.classifyCandidate_tru_own : (s.classifyCandidate).tru.own = s.tru.own := rfl
@[simp] theorem State.classifyCandidate_tru_waiting : (s.classifyCandidate).tru.waiting = s.tru.waiting := rfl
@[simp] theorem State.classifyCandidate_tru_placing : (s.classifyCandidate).tru.placing = s.tru.placing := rfl
@[simp] theorem State.classifyCandidate_tru_flight : (s.classifyCandidate).tru.flight = s.tru.flight := rfl
@[simp] theorem State.classifyCandidate_tru_controlBase : (s.classifyCandidate).tru.controlBase = s.tru.controlBase := rfl
@[simp] theorem State.classifyCandidate_tru_params : (s.classifyCandidate).tru.params = s.tru.params := rfl
@[simp] theorem State.classifyCandidate_tru_ackShadow : (s.classifyCandidate).tru.ackShadow = s.tru.ackShadow := rfl
@[simp] theorem State.classifyCandidate_tru_enableShadow : (s.classifyCandidate).tru.enableShadow = s.tru.enableShadow := rfl
@[simp] theorem State.classifyCandidate_tru_stopShadow : (s.classifyCandidate).tru.stopShadow = s.tru.stopShadow := rfl
@[simp] theorem State.classifyCandidate_tru_share : (s.classifyCandidate).tru.share = s.tru.share := rfl
@[simp] theorem State.classifyCandidate_tru_hits : (s.classifyCandidate).tru.hits = s.tru.hits := rfl
@[simp] theorem State.classifyCandidate_tru_answers : (s.classifyCandidate).tru.answers = s.tru.answers := rfl
@[simp] theorem State.classifyCandidate_rou : (s.classifyCandidate).rou = s.rou := rfl
@[simp] theorem State.classifyCandidate_sac : (s.classifyCandidate).sac = s.sac := rfl
@[simp] theorem State.classifyCandidate_csu : (s.classifyCandidate).csu = s.csu := rfl
@[simp] theorem State.classifyCandidate_channel (k : Fin 3) : (s.classifyCandidate).channel k = s.channel k := by
  simp [State.channel]
@[simp] theorem State.classifyCandidate_slot (k : Fin 8) : (s.classifyCandidate).slot k = s.slot k := by
  simp [State.slot]
@[simp] theorem State.classifyCandidate_bridge (k : Fin 4) : (s.classifyCandidate).bridge k = s.bridge k := by
  simp [State.bridge]
@[simp] theorem State.classifyCandidate_stopWord (k : Fin 3) : (s.classifyCandidate).stopWord k = s.stopWord k := by
  simp [State.stopWord]

/-! ### `State.finish` -/

@[simp] theorem State.finish_pending : (s.finish).pending = s.pending := by simp [State.finish]
@[simp] theorem State.finish_porstLow : (s.finish).porstLow = s.porstLow := by simp [State.finish]
@[simp] theorem State.finish_ctlsel : (s.finish).ctlsel = s.ctlsel := by simp [State.finish]
@[simp] theorem State.finish_freeCount : (s.finish).freeCount = s.freeCount := by simp [State.finish]
@[simp] theorem State.finish_lcu : (s.finish).lcu = s.lcu := by simp [State.finish]
@[simp] theorem State.finish_fdu : (s.finish).fdu = s.fdu := by simp [State.finish]
@[simp] theorem State.finish_ppl : (s.finish).ppl = s.ppl := by simp [State.finish]
@[simp] theorem State.finish_cdu : (s.finish).cdu = s.cdu := by simp [State.finish]
@[simp] theorem State.finish_tru_flight : (s.finish).tru.flight = s.tru.flight := by simp [State.finish]
@[simp] theorem State.finish_tru_controlBase : (s.finish).tru.controlBase = s.tru.controlBase := by simp [State.finish]
@[simp] theorem State.finish_tru_params : (s.finish).tru.params = s.tru.params := by simp [State.finish]
@[simp] theorem State.finish_tru_ackShadow : (s.finish).tru.ackShadow = s.tru.ackShadow := by simp [State.finish]
@[simp] theorem State.finish_tru_enableShadow : (s.finish).tru.enableShadow = s.tru.enableShadow := by simp [State.finish]
@[simp] theorem State.finish_tru_stopShadow : (s.finish).tru.stopShadow = s.tru.stopShadow := by simp [State.finish]
@[simp] theorem State.finish_tru_share : (s.finish).tru.share = s.tru.share := by simp [State.finish]
@[simp] theorem State.finish_tru_hits : (s.finish).tru.hits = s.tru.hits := by simp [State.finish]
@[simp] theorem State.finish_tru_answers : (s.finish).tru.answers = s.tru.answers := by simp [State.finish]
@[simp] theorem State.finish_sac : (s.finish).sac = s.sac := by simp [State.finish]
@[simp] theorem State.finish_csu_inspection : (s.finish).csu.inspection = s.csu.inspection := by simp [State.finish]
@[simp] theorem State.finish_csu_fifo : (s.finish).csu.fifo = s.csu.fifo := by simp [State.finish]
@[simp] theorem State.finish_csu_refreshCount : (s.finish).csu.refreshCount = s.csu.refreshCount := by simp [State.finish]
@[simp] theorem State.finish_bridge (k : Fin 4) : (s.finish).bridge k = s.bridge k := by
  simp [State.bridge]
@[simp] theorem State.finish_stopWord (k : Fin 3) : (s.finish).stopWord k = s.stopWord k := by
  simp [State.stopWord]

/-! ### `State.clearOutputs` -/

@[simp] theorem State.clearOutputs_pending : (s.clearOutputs).pending = s.pending := rfl
@[simp] theorem State.clearOutputs_porstLow : (s.clearOutputs).porstLow = s.porstLow := rfl
@[simp] theorem State.clearOutputs_ctlsel : (s.clearOutputs).ctlsel = s.ctlsel := rfl
@[simp] theorem State.clearOutputs_freeCount : (s.clearOutputs).freeCount = s.freeCount := rfl
@[simp] theorem State.clearOutputs_lcu_counter : (s.clearOutputs).lcu.counter = s.lcu.counter := rfl
@[simp] theorem State.clearOutputs_lcu_divider : (s.clearOutputs).lcu.divider = s.lcu.divider := rfl
@[simp] theorem State.clearOutputs_lcu_fifo : (s.clearOutputs).lcu.fifo = s.lcu.fifo := rfl
@[simp] theorem State.clearOutputs_lcu_lastStamp : (s.clearOutputs).lcu.lastStamp = s.lcu.lastStamp := rfl
@[simp] theorem State.clearOutputs_lcu_assembly : (s.clearOutputs).lcu.assembly = s.lcu.assembly := rfl
@[simp] theorem State.clearOutputs_lcu_lineQueue : (s.clearOutputs).lcu.lineQueue = s.lcu.lineQueue := rfl
@[simp] theorem State.clearOutputs_lcu_gaps : (s.clearOutputs).lcu.gaps = s.lcu.gaps := rfl
@[simp] theorem State.clearOutputs_lcu_resumeArmed : (s.clearOutputs).lcu.resumeArmed = s.lcu.resumeArmed := rfl
@[simp] theorem State.clearOutputs_fdu : (s.clearOutputs).fdu = s.fdu := rfl
@[simp] theorem State.clearOutputs_ppl : (s.clearOutputs).ppl = s.ppl := rfl
@[simp] theorem State.clearOutputs_cdu : (s.clearOutputs).cdu = s.cdu := rfl
@[simp] theorem State.clearOutputs_tru_transit : (s.clearOutputs).tru.transit = s.tru.transit := rfl
@[simp] theorem State.clearOutputs_tru_own : (s.clearOutputs).tru.own = s.tru.own := rfl
@[simp] theorem State.clearOutputs_tru_waiting : (s.clearOutputs).tru.waiting = s.tru.waiting := rfl
@[simp] theorem State.clearOutputs_tru_placing : (s.clearOutputs).tru.placing = s.tru.placing := rfl
@[simp] theorem State.clearOutputs_tru_flight : (s.clearOutputs).tru.flight = s.tru.flight := rfl
@[simp] theorem State.clearOutputs_tru_controlBase : (s.clearOutputs).tru.controlBase = s.tru.controlBase := rfl
@[simp] theorem State.clearOutputs_tru_params : (s.clearOutputs).tru.params = s.tru.params := rfl
@[simp] theorem State.clearOutputs_tru_ackShadow : (s.clearOutputs).tru.ackShadow = s.tru.ackShadow := rfl
@[simp] theorem State.clearOutputs_tru_enableShadow : (s.clearOutputs).tru.enableShadow = s.tru.enableShadow := rfl
@[simp] theorem State.clearOutputs_tru_stopShadow : (s.clearOutputs).tru.stopShadow = s.tru.stopShadow := rfl
@[simp] theorem State.clearOutputs_tru_share : (s.clearOutputs).tru.share = s.tru.share := rfl
@[simp] theorem State.clearOutputs_tru_hits : (s.clearOutputs).tru.hits = s.tru.hits := rfl
@[simp] theorem State.clearOutputs_rou : (s.clearOutputs).rou = s.rou := rfl
@[simp] theorem State.clearOutputs_sac : (s.clearOutputs).sac = s.sac := rfl
@[simp] theorem State.clearOutputs_csu : (s.clearOutputs).csu = s.csu := rfl
@[simp] theorem State.clearOutputs_channel (k : Fin 3) : (s.clearOutputs).channel k = s.channel k := by
  simp [State.channel]
@[simp] theorem State.clearOutputs_slot (k : Fin 8) : (s.clearOutputs).slot k = s.slot k := by
  simp [State.slot]
@[simp] theorem State.clearOutputs_bridge (k : Fin 4) : (s.clearOutputs).bridge k = s.bridge k := by
  simp [State.bridge]
@[simp] theorem State.clearOutputs_stopWord (k : Fin 3) : (s.clearOutputs).stopWord k = s.stopWord k := by
  simp [State.stopWord]

/-! ### The numbered parts -/

@[simp] theorem State.onChannel_channel_same (ch : Fin 3) (f : Channel → Channel) :
    (s.onChannel ch f).channel ch = f (s.channel ch) := by
  simp [State.onChannel, State.channel]

theorem State.onChannel_channel_ne {ch k : Fin 3} (f : Channel → Channel) (h : k ≠ ch) :
    (s.onChannel ch f).channel k = s.channel k := by
  have : (ch : Nat) ≠ k := fun e => h (Fin.ext e.symm)
  simp [State.onChannel, State.channel, Vector.getElem_set_ne, this]

@[simp] theorem State.onSlot_slot_same (n : Fin 8) (f : Slot → Slot) : (s.onSlot n f).slot n = f (s.slot n) := by
  simp [State.onSlot, State.slot]

theorem State.onSlot_slot_ne {n k : Fin 8} (f : Slot → Slot) (h : k ≠ n) : (s.onSlot n f).slot k = s.slot k := by
  have : (n : Nat) ≠ k := fun e => h (Fin.ext e.symm)
  simp [State.onSlot, State.slot, Vector.getElem_set_ne, this]

@[simp] theorem State.onBridge_bridge_same (b : Fin 4) (f : Bridge → Bridge) :
    (s.onBridge b f).bridge b = f (s.bridge b) := by
  simp [State.onBridge, State.bridge]

theorem State.onBridge_bridge_ne {b k : Fin 4} (f : Bridge → Bridge) (h : k ≠ b) :
    (s.onBridge b f).bridge k = s.bridge k := by
  have : (b : Nat) ≠ k := fun e => h (Fin.ext e.symm)
  simp [State.onBridge, State.bridge, Vector.getElem_set_ne, this]

end Sys2Proof.Machine
end

