-- ==== Sys2Proof/Laws/Ops.lean ====
section
/-! SUPPORT. What each shared operation does, said once: raising a cause, adding a range, producing a record, completing a command, the
gap list and the answers upstream. -/

namespace Sys2Proof.Machine

variable (s : State)

/-! ### Causes and status writes -/

/-- After a cause is raised the cause word is what it was with the cause's bit set (R165). -/
@[simp] theorem State.setCauses_causes (w : Word) : (s.setCauses w).csu.causes = w := by
  unfold State.setCauses
  split
  · rename_i h; exact h.symm
  · simp

@[simp] theorem State.raise_causes (c : Cause) :
    (s.raise c).csu.causes = s.csu.causes ||| BitVec.ofNat 32 (2 ^ c.bit) := by simp [State.raise]

/-- A status write waits after it was requested (R164). -/
@[simp] theorem State.requestStatus_waiting : s.requestStatus.csu.statusWaiting = true := by
  unfold State.requestStatus
  split
  · assumption
  · rfl

/-- A request of a status write places one write, or none while one waits (R164). -/
theorem State.requestStatus_placing : s.requestStatus.tru.placing =
    if s.csu.statusWaiting then s.tru.placing else s.tru.placing ++ [statusRequest s.tru.controlBase] := by
  unfold State.requestStatus
  split <;> rfl

/-! ### The deadline -/

/-- The piece that starts at `p` has its deadline armed (R81). -/
@[simp] theorem State.armAt_piece (p : Pos) : (s.armAt p).ppl.piece = some { start := p, deadline := s.deadlineOf p } := rfl

/-- An expiry is raised at once exactly if the counter has reached the deadline (R81). -/
@[simp] theorem State.armAt_raisedAtOnce (p : Pos) : (s.armAt p).ppl.raisedAtOnce = reaches (s.deadlineOf p) s.lcu.counter := rfl

@[simp] theorem State.armAt_expiryOwed (p : Pos) : (s.armAt p).expiryOwed = reaches (s.deadlineOf p) s.lcu.counter := by
  simp [State.expiryOwed, State.expiryRaised, State.armAt]

@[simp] theorem State.armAt_pending (p : Pos) : (s.armAt p).pending = s.pending := rfl
@[simp] theorem State.armAt_porstLow (p : Pos) : (s.armAt p).porstLow = s.porstLow := rfl
@[simp] theorem State.armAt_ctlsel (p : Pos) : (s.armAt p).ctlsel = s.ctlsel := rfl
@[simp] theorem State.armAt_freeCount (p : Pos) : (s.armAt p).freeCount = s.freeCount := rfl
@[simp] theorem State.armAt_lcu (p : Pos) : (s.armAt p).lcu = s.lcu := rfl
@[simp] theorem State.armAt_fdu (p : Pos) : (s.armAt p).fdu = s.fdu := rfl
@[simp] theorem State.armAt_cdu (p : Pos) : (s.armAt p).cdu = s.cdu := rfl
@[simp] theorem State.armAt_tru (p : Pos) : (s.armAt p).tru = s.tru := rfl
@[simp] theorem State.armAt_rou (p : Pos) : (s.armAt p).rou = s.rou := rfl
@[simp] theorem State.armAt_sac (p : Pos) : (s.armAt p).sac = s.sac := rfl
@[simp] theorem State.armAt_csu (p : Pos) : (s.armAt p).csu = s.csu := rfl

@[simp] theorem State.armDeadline_pending : s.armDeadline.pending = s.pending := by unfold State.armDeadline; split <;> rfl
@[simp] theorem State.armDeadline_porstLow : s.armDeadline.porstLow = s.porstLow := by unfold State.armDeadline; split <;> rfl
@[simp] theorem State.armDeadline_ctlsel : s.armDeadline.ctlsel = s.ctlsel := by unfold State.armDeadline; split <;> rfl
@[simp] theorem State.armDeadline_freeCount : s.armDeadline.freeCount = s.freeCount := by unfold State.armDeadline; split <;> rfl
@[simp] theorem State.armDeadline_lcu : s.armDeadline.lcu = s.lcu := by unfold State.armDeadline; split <;> rfl
@[simp] theorem State.armDeadline_fdu : s.armDeadline.fdu = s.fdu := by unfold State.armDeadline; split <;> rfl
@[simp] theorem State.armDeadline_cdu : s.armDeadline.cdu = s.cdu := by unfold State.armDeadline; split <;> rfl
@[simp] theorem State.armDeadline_tru : s.armDeadline.tru = s.tru := by unfold State.armDeadline; split <;> rfl
@[simp] theorem State.armDeadline_rou : s.armDeadline.rou = s.rou := by unfold State.armDeadline; split <;> rfl
@[simp] theorem State.armDeadline_sac : s.armDeadline.sac = s.sac := by unfold State.armDeadline; split <;> rfl
@[simp] theorem State.armDeadline_csu : s.armDeadline.csu = s.csu := by unfold State.armDeadline; split <;> rfl

/-! ### Ranges -/

@[simp] theorem State.addGap_gaps (g : Gap) : (s.addGap g).lcu.gaps = gapAdd s.lcu.gaps g := rfl

/-- A loss enters the gap list as any range does (R17). -/
@[simp] theorem State.addLoss_gaps (c : LossCause) (g : Gap) : (s.addLoss c g).lcu.gaps = gapAdd s.lcu.gaps g := by
  unfold State.addLoss
  split
  · rename_i h; simp [gapAdd, h]
  · simp

/-- A loss is counted under its cause, with its length as added (R17, R150). -/
theorem State.addLoss_counters (c : LossCause) (g : Gap) (h : g.length ≠ 0) : (s.addLoss c g).sac.counters =
    { s.sac.counters with
      lost := bump s.sac.counters.lost c.index 1
      lostLength := bump s.sac.counters.lostLength c.index g.length } := by
  simp [State.addLoss, h, State.count]

theorem length_gapInsert (g : Gap) (l : List Gap) : (gapInsert g l).length = l.length + 1 := by
  induction l with
  | nil => rfl
  | cons a l ih => unfold gapInsert; split <;> simp [ih]

theorem length_gapAbsorb (g : Gap) (l : List Gap) :
    (gapAbsorb g l).length = (l.filter fun h => !g.touches h).length + 1 := by
  simp [gapAbsorb, length_gapInsert]

/-- The gap list never grows past 32 entries (R16, R18). -/
theorem length_gapAdd (l : List Gap) (g : Gap) (h : l.length ≤ gapCapacity) : (gapAdd l g).length ≤ gapCapacity := by
  unfold gapAdd
  split
  · exact h
  · split
    · rename_i hc
      rw [length_gapAbsorb]
      simp only [Bool.or_eq_true, decide_eq_true_eq, List.any_eq_true] at hc
      rcases hc with ⟨x, hx, hg⟩ | hc
      · have : (l.filter fun h => !g.touches h).length < l.length := by
          apply List.length_filter_lt_length_iff_exists.mpr
          exact ⟨x, hx, by simp [hg]⟩
        omega
      · have := List.length_filter_le (fun h => !g.touches h) l
        omega
    · split
      · simp [gapCapacity]
      · rename_i last hl
        rw [length_gapAbsorb]
        have h1 := List.length_filter_le (fun h => !(last.hull g).touches h) l.dropLast
        have h2 : l.dropLast.length = l.length - 1 := List.length_dropLast
        have h3 : l ≠ [] := by rintro rfl; simp at hl
        have h4 : 0 < l.length := List.length_pos_iff.mpr h3
        omega

/-- A commit never lengthens the gap list (R19). -/
theorem length_gapClip (e : Pos) (l : List Gap) : (gapClip e l).length ≤ l.length := List.length_filterMap_le _ _

/-! ### Records -/

/-- What producing a record does to its channel (R139). -/
theorem State.produce_channel (ch : Fin 3) (b : RecordBody) : (s.produce ch b).channel ch =
    if (s.channel ch).queue.length < queueDepth ch then
      { s.channel ch with
        queue := (s.channel ch).queue ++ [{ seq := (s.channel ch).nextSeq, body := b }]
        nextSeq := nextSequence (s.channel ch).nextSeq, produced := (s.channel ch).produced + 1 }
    else
      { s.channel ch with
        nextSeq := nextSequence (s.channel ch).nextSeq, produced := (s.channel ch).produced + 1
        dropped := (s.channel ch).dropped + 1 } := by
  unfold State.produce
  dsimp only
  split <;> simp

/-- Producing a record leaves the other channels alone. -/
theorem State.produce_channel_ne {ch k : Fin 3} (b : RecordBody) (h : k ≠ ch) : (s.produce ch b).channel k = s.channel k := by
  unfold State.produce
  dsimp only
  split <;> simp [State.onChannel_channel_ne, h]

/-! ### Completion -/

/-- A completed command leaves its slot FREE with the overrun flag clear (R160). -/
@[simp] theorem State.complete_slot_same (n : Fin 8) (st : Status) (v : Word) :
    (s.complete n st v).slot n = { s.slot n with state := .free, overrun := false } := by
  simp [State.complete, State.slot, State.onSlot]

theorem State.complete_slot_ne {n k : Fin 8} (st : Status) (v : Word) (h : k ≠ n) :
    (s.complete n st v).slot k = s.slot k := by
  have : (n : Nat) ≠ k := fun e => h (Fin.ext e.symm)
  simp [State.complete, State.slot, State.onSlot, Vector.getElem_set_ne, this]

@[simp] theorem State.complete_running (n : Fin 8) (st : Status) (v : Word) :
    (s.complete n st v).csu.running = s.csu.running.filter fun r => r.slot != n := by
  simp [State.complete]

/-- A completion raises CMD_DONE (R160). -/
@[simp] theorem State.complete_causes (n : Fin 8) (st : Status) (v : Word) :
    (s.complete n st v).csu.causes = s.csu.causes ||| 1#32 := by
  simp [State.complete, Cause.bit]

/-! ### What goes downstream -/

@[simp] theorem TransitEntry.wire_kind (e : TransitEntry) : e.wire.kind = e.req.kind := rfl
@[simp] theorem TransitEntry.wire_addr (e : TransitEntry) : e.wire.addr = e.req.addr := rfl
@[simp] theorem TransitEntry.wire_length (e : TransitEntry) : e.wire.length = e.req.length := rfl
@[simp] theorem TransitEntry.wire_tag (e : TransitEntry) : e.wire.tag = e.req.tag := rfl
@[simp] theorem OwnRequest.wire_kind (r : OwnRequest) : r.wire.kind = r.kind := rfl
@[simp] theorem OwnRequest.wire_length (r : OwnRequest) : r.wire.length = r.beats := rfl
@[simp] theorem OwnRequest.wire_tag (r : OwnRequest) : r.wire.tag = 0xFF := rfl
@[simp] theorem InFlight.wire_transit (sent : Request) : (InFlight.transit sent).wire = sent := rfl
@[simp] theorem InFlight.wire_own (r : OwnRequest) : (InFlight.own r).wire = r.wire := rfl

/-- Every byte of an own write goes downstream enabled (R132). -/
theorem OwnRequest.wire_enables (r : OwnRequest) : ∀ b ∈ r.wire.beats, b.enables = BitVec.allOnes 32 := by
  unfold OwnRequest.wire
  cases r.kind <;> simp

/-! ### The tables of a load -/

/-- With its last read in, a table is judged and the next table is read, whatever the judgement (R163). -/
theorem State.tableReturned_whole (n : Fin 8) (i : Nat) (e : DirEntry) (rest : List DirEntry) (bytes : List Byte)
    (good : List TableBody) (refused : Option Nat) (h : e.kind.length ≤ bytes.length) :
    s.tableReturned n i (e :: rest) bytes good refused =
      s.readNextTable n (i + 1) rest (good ++ (readTable s.tru.controlBase e.kind bytes).toList)
        (if readTable s.tru.controlBase e.kind bytes = none then some (refused.getD i) else refused) := by
  unfold State.tableReturned
  simp only [Nat.not_lt.mpr h, if_false]
  cases readTable s.tru.controlBase e.kind bytes <;> simp [firstRefused]

/-! ### Answers upstream -/

theorem answerHead_eq (l : List TransitEntry) : ∀ out, answerHead l out =
    (l.dropWhile (fun e => decide (e.state = .ready)),
      out ++ (l.takeWhile fun e => decide (e.state = .ready)).map fun e => { tag := e.req.tag, data := e.answer }) := by
  induction l with
  | nil => intro out; simp [answerHead]
  | cons e l ih =>
    intro out
    unfold answerHead
    split
    · rename_i h; rw [ih]; simp [h]
    · rename_i h; simp [h]

/-- READY entries at the head leave, oldest first, and are answered (R125). -/
theorem State.answerUpstream_transit :
    s.answerUpstream.tru.transit = s.tru.transit.dropWhile fun e => decide (e.state = .ready) := by
  simp [State.answerUpstream, answerHead_eq]

theorem State.answerUpstream_answers : s.answerUpstream.tru.answers = s.tru.answers
    ++ (s.tru.transit.takeWhile fun e => decide (e.state = .ready)).map fun e => { tag := e.req.tag, data := e.answer } := by
  simp [State.answerUpstream, answerHead_eq]

end Sys2Proof.Machine
end

