-- ==== Sys2Proof/Laws/Quiet.lean ====
section
/-! SUPPORT. In a settled state settling changes nothing, in a closed state closing changes nothing: a command on a quiet state is its own
effect. -/

namespace Sys2Proof.Machine

variable {s : State}

theorem State.ifOwed_of_not {owed : State → Bool} {f : State → State} (h : owed s = false) : s.ifOwed owed f = s := by
  simp [State.ifOwed, h]

theorem State.ifOwed_of_owed {owed : State → Bool} {f : State → State} (h : owed s = true) : s.ifOwed owed f = s.event f := by
  simp [State.ifOwed, h]

theorem State.whileOwed_of_not {owed : State → Bool} {f : State → State} (h : owed s = false) (n : Nat) :
    State.whileOwed owed f n s = s := by
  cases n <;> simp [State.whileOwed, h]

/-- What `State.settled` says, part by part. -/
theorem State.settled_iff : s.settled = true ↔
    s.porstLow = false ∧ s.expiryOwed = false ∧ s.triggerOwed = false ∧ s.cdu.missTest = false ∧ s.cdu.timeoutTest = false
      ∧ s.dueOwed = false ∧ s.maskedOwed = false ∧ s.placeOwed = false := by
  simp [State.settled, and_assoc]

theorem State.settle_of_settled (h : s.settled = true) : s.settle = s := by
  obtain ⟨-, h0, h1, h2, h3, h4, h5, h6⟩ := State.settled_iff.mp h
  have e0 : s.settleExpiry = s := State.ifOwed_of_not h0
  have e1 : s.settleTrigger = s := State.ifOwed_of_not h1
  have e2 : s.settleTests = s := by
    unfold State.settleTests
    rw [State.ifOwed_of_not (owed := fun s => s.cdu.missTest) h2, State.ifOwed_of_not (owed := fun s => s.cdu.timeoutTest) h3]
  have e3 : s.settleDue = s := State.ifOwed_of_not h4
  have e4 : s.settleMasked = s := State.whileOwed_of_not h5 _
  have e5 : s.settlePlaced = s := State.whileOwed_of_not h6 _
  simp [State.settle, e0, e1, e2, e3, e4, e5]

theorem State.settled_clearOutputs : s.clearOutputs.settled = s.settled := rfl

theorem State.settle_clearOutputs (h : s.settled = true) : s.clearOutputs.settle = s.clearOutputs :=
  State.settle_of_settled (by rw [State.settled_clearOutputs]; exact h)

theorem State.porstLow_of_settled (h : s.settled = true) : s.porstLow = false := (State.settled_iff.mp h).1

/-- A command on a settled state is its own event, after the outputs have been withdrawn. -/
theorem command_of_settled {f : State → State} (h : s.settled = true) : command f s = .next (s.clearOutputs.event f) := by
  simp [command, State.commandState, State.porstLow_of_settled h, State.settle_clearOutputs h]

/-! ### Closing -/

theorem State.completeLoads_of_noLoadDone (h : s.noLoadDone = true) : s.completeLoads = s := by
  simp only [State.noLoadDone, Bool.and_eq_true, Bool.or_eq_true] at h
  obtain ⟨h1, h2⟩ := h
  have e1 : s.completeTables = s := by
    unfold State.completeTables
    rcases h1 with h1 | h1
    · rw [Option.isNone_iff_eq_none] at h1; simp [h1]
    · split
      · simp at h1; simp [h1]
      · rfl
  have e2 : s.completeReference = s := by
    unfold State.completeReference State.completeWith
    rcases h2 with h2 | h2
    · rw [Option.isSome_iff_ne_none] at h2; simp [h2]
    · rw [Option.isNone_iff_eq_none] at h2; simp [h2]
  rw [State.completeLoads, e1, e2]

theorem State.writeNext_of_not {ch : Fin 3} (h : s.canWrite ch = false) : s.writeNext ch = s := by
  unfold State.writeNext
  dsimp only
  split
  · rename_i e r l he hq
    split
    · rename_i hc
      obtain ⟨h1, h2, h3, h4⟩ := hc
      simp [State.canWrite, he, hq, h1, h2, h3, h4] at h
    · rfl
  · rfl

theorem onFirst_of_fixed {f : TransitEntry → Bool} {g : TransitEntry → TransitEntry} {l : List TransitEntry}
    (h : ∀ e, l.find? f = some e → g e = e) : onFirst f g l = l := by
  induction l with
  | nil => rfl
  | cons a l ih =>
    unfold onFirst
    split
    · rename_i ha
      rw [h a (by simp [List.find?, ha])]
    · rename_i ha
      rw [ih fun e he => h e (by simp [List.find?, ha, he])]

theorem State.classifyCandidate_of_classified (h : s.candidateClassified = true) : s.classifyCandidate = s := by
  have : onFirst TransitEntry.isPending
      (fun e => if e.classes.isNone then { e with classes := some (s.classify e.req) } else e) s.tru.transit
      = s.tru.transit := by
    apply onFirst_of_fixed
    intro e he
    have hc : s.candidate = some e := he
    simp only [State.candidateClassified, hc] at h
    cases hcl : e.classes <;> simp_all
  rw [State.classifyCandidate, this]

theorem State.placeAll_of_none (h : s.tru.placing = []) : s.placeAll = s := by
  have hr : rankSorted [] = [] := by simp [rankSorted]
  cases s with
  | mk p pl c fc lcu fdu ppl cdu tru rou sac csu =>
    cases tru
    simp only at h
    subst h
    simp [State.placeAll, hr]

theorem State.finish_of_closed (h : s.closed = true) : s.finish = s := by
  simp only [State.closed, Bool.and_eq_true, Bool.not_eq_true', List.isEmpty_iff] at h
  obtain ⟨⟨⟨⟨⟨h1, h2⟩, h3⟩, h4⟩, h5⟩, h6⟩ := h
  rw [State.finish, State.completeLoads_of_noLoadDone h1, State.writeAll, State.writeNext_of_not h2, State.writeNext_of_not h3,
    State.writeNext_of_not h4, State.classifyCandidate_of_classified h5, State.placeAll_of_none h6]

theorem State.closed_clearOutputs : s.clearOutputs.closed = s.closed := rfl

theorem State.quiet_iff : s.quiet = true ↔ s.settled = true ∧ s.closed = true := by simp [State.quiet]

end Sys2Proof.Machine
end

