-- ==== Sys2Proof/Tests/Slice0.lean ====
section
/-! SUPPORT. The model's own tests: ill-formed commands are refused, worked examples of the spec come out, and for every statement that has
hypotheses concrete states and operands meet them, clause by clause (`witness_<the statement's name>`). -/

namespace Sys2Proof.Tests

open Sys2Proof Sys2Proof.Machine

-- One proof at a time: the tests are many small kernel evaluations, and one thread each would not fit in memory.
set_option Elab.async false

/-! ### The check on commands -/

/-- A beat of 32 bytes. -/
def beat (enables : BitVec 32) : Beat := { data := List.replicate 32 1, enables := enables }

/-- A well-formed write of one beat. -/
def write1 (addr : BitVec 40) (enables : BitVec 32) : Request :=
  { kind := .write, addr := addr, length := 1, tag := 9, beats := [beat enables] }

/-- A well-formed read. -/
def read1 (addr : BitVec 40) (length : Nat) : Request := { kind := .read, addr := addr, length := length, tag := 7, beats := [] }

theorem test_wellFormed_write : (Instr.upstreamRequest (write1 0x1000 5)).wellFormed = true := by decide
theorem test_wellFormed_last_beat : (Instr.upstreamRequest (read1 0xFFFFFFFE00 16)).wellFormed = true := by decide
theorem test_illFormed_past_end : (Instr.upstreamRequest (read1 0xFFFFFFFE20 16)).wellFormed = false := by decide
theorem test_illFormed_no_beats : (Instr.upstreamRequest (read1 0 0)).wellFormed = false := by decide
theorem test_illFormed_17_beats : (Instr.upstreamRequest (read1 0 17)).wellFormed = false := by decide
theorem test_illFormed_misaligned : (Instr.upstreamRequest (read1 16 1)).wellFormed = false := by decide
theorem test_illFormed_read_with_data :
    (Instr.upstreamRequest { read1 0 1 with beats := [beat 0] }).wellFormed = false := by decide
theorem test_illFormed_write_without_data :
    (Instr.upstreamRequest { write1 0 1 with beats := [] }).wellFormed = false := by decide
theorem test_illFormed_short_beat :
    (Instr.upstreamRequest { write1 0 1 with beats := [{ data := [1], enables := 0 }] }).wellFormed = false := by decide
theorem test_illFormed_slot_beat : (Instr.controlWindowWrite 0 [1, 2] 0).wellFormed = false := by decide
theorem test_illFormed_answer : (Instr.downstreamAnswer [1]).wellFormed = false := by decide
theorem test_illFormed_return : (Instr.ownReadReturn [1]).wellFormed = false := by decide

/-! ### Worked examples of the spec -/

/-- R25's table of worked values. -/
theorem test_contrast_table :
    contrastOf 16 (-12416) = -61 ∧ contrastOf 16 (-128) = -1 ∧ contrastOf 0 128 = 1 ∧ contrastOf 0 (-128) = -1 ∧ contrastOf 0 64 = 0
      ∧ contrastOf 62 65280 = 255 ∧ contrastOf 62 (-65535) = -255 ∧ contrastOf 62 25600 = 197 := by decide

/-- R115's example: bytes that sum to 0x8A are followed by 0x76. -/
theorem test_check_byte : checkByte [0x80, 0x0A] = 0x76 := by decide

/-- R108: after tag 255 comes 1, and the bridge's last reported tag is passed over. -/
theorem test_tags : nextTag 255 9 = 1 ∧ nextTag 8 9 = 10 ∧ nextTag 255 1 = 2 := by decide

/-- The event line's table (11.1): SHIFT_CLOSED is bit 1, CH_EOL of channel 2 bit 10, LINE_LOSS bit 16. -/
theorem test_cause_bits : Cause.shiftClosed.bit = 1 ∧ (Cause.chEol 2).bit = 10 ∧ Cause.lineLoss.bit = 16 := by decide

/-- 11.4: a descriptor in the upper half of its beat. -/
theorem test_descriptor : descriptorOf 3 (reserved 16 ++ [0x40, 0x10, 0, 0x20, 0, 9, 9, 9, 2, 1, 3] ++ reserved 5)
    = { buffer := 0x20001040, capacity := 258, flag := true, eol := true } := by decide

/-- 11.2: the result word's bytes. -/
theorem test_result_word :
    resultWord { code := 0x41, sequence := 5, arg1 := 0, arg2 := 0, arg3 := 0, arg4 := 0, arg5 := 0 } .infeasible true = 0x01030541 := by decide

/-- The lengths of the records and of the status block (11.3, 11.5). -/
theorem test_status_block_length : State.reset.statusBlock.length = 256 := by decide +kernel

/-! ### States for the witnesses -/

/-- Slot 0 holds a command that is next. -/
def ready (code : Byte) (a1 : Word := 0) (a2 : Word := 0) (a3 : Word := 0) (s : State := State.reset) : State :=
  { s with
    csu.fifo := [0]
    csu.slots := s.csu.slots.set 0
      { s.csu.slots[0] with
        state := .queued, command := { code := code, sequence := 1, arg1 := a1, arg2 := a2, arg3 := a3, arg4 := 0, arg5 := 0 } } }

/-- A committed piece. -/
def piece (seq : Word) (fire : Pos) : Piece :=
  { seq := seq, start := 0, stop := 100, fire := fire, product := some 0, grade := .b, points := 0, flawCount := 0
    uninspected := 0, lane := 1, cutout := false, belowFloor := false, forced := false, cutThrough := false, manual := false }

/-- A WAITING entry. -/
def waitingEntry (seq : Word) (fire : Pos) : Entry := { piece := piece seq fire, state := .waiting false }

/-- An entry ISSUED to bridge 1 at position 0 under tag 5. -/
def issuedEntry (seq : Word) : Entry := { piece := piece seq 0, state := .issued 0 5 0 }

/-- A bridge in a state. -/
def bridgeIn (st : BridgeState) : Bridge := { Bridge.powerOn with state := st }

/-- The dispatch unit with an engine state, a queue and the state of bridge 1, at a counter. -/
def dispatch (e : Engine) (q : List Entry) (st : BridgeState) (counter : Pos := 0) : State :=
  { State.reset with
    lcu.counter := counter, cdu.engine := e, cdu.queue := q, cdu.mask := 1, cdu.gapRunning := true
    cdu.bridges := State.reset.cdu.bridges.set 0 (bridgeIn st) }

/-- Channel 0 changes. -/
def withChannel (f : Channel → Channel) (s : State := State.reset) : State := { s with rou := s.rou.set 0 (f s.rou[0]) }

/-- An own request of a purpose at address 0. -/
def own (p : OwnPurpose) (k : ReqKind) : OwnRequest := { purpose := p, kind := k, addr := 0, beats := 1, data := [] }

/-- A line of one stamp. -/
def line (stamp : Pos) : Line := { stamp := stamp, extrapolated := false, slot := 0, pixels := [] }

/-- An open piece from position 0. -/
def openPiece : OpenPiece := { start := 0, deadline := State.reset.deadlineOf 0 }

/-- A flaw from 0 to 10 that disqualifies. -/
def flaw : Flaw :=
  { id := 1, polarity := .dark, first := 0, last := 8, minCol := 0, maxCol := 1, area := 2, sum := 9, peak := 9, lines := 1
    stop := 10, widthUm := 1, lengthUm := 1, size := 1, cls := 0, band := 0, zone := .center, points := 255, merged := false
    continuedFrom := none, split := false, cutThrough := false, truncated := false, remainderOf := none }

/-- A dark column of pixel 0 under the power-on background. -/
def darkColumn (k : Nat) : Column := { index := k, pixel := 0, gain := 0, background := 0x8000 }

/-- A run of columns 3 and 4. -/
def run34 : Run := { first := 3, last := 4, polarity := .dark, strong := true, peak := 128, sum := 256 }

/-- An open blob over columns 3 and 4 at position 0. -/
def blob34 : Blob := run34.newBlob 1 0

/-! ### Witnesses: the machine as a whole -/

theorem witness_StepRunsFrontCommand : { State.reset with pending := [.start] }.pending = .start :: [] ∧ State.reset.pending = [] := by
  decide

theorem witness_CapacitiesKept : State.reset.Capacities ∧ ∃ t, step State.reset = .next t := by
  exact ⟨by constructor <;> decide, _, rfl⟩

theorem witness_TablesCanonicalKept : State.reset.TablesCanonical ∧ ∃ t, step State.reset = .next t := by
  refine ⟨⟨rfl, rfl, ?_, ?_, ?_⟩, _, rfl⟩
  · intro t h; exact absurd h (by simp [State.reset, State.powerOn])
  · intro t h; exact absurd h (by simp [State.reset, State.powerOn])
  · intro r h; exact absurd h (by simp [State.reset, State.powerOn])

theorem witness_SlotsFollowKept : State.reset.SlotsFollow ∧ ∃ t, step State.reset = .next t := by
  refine ⟨⟨by decide, ?_, ?_⟩, _, rfl⟩
  · intro r h; exact absurd h (by simp [State.reset, State.powerOn])
  · intro r h; exact absurd h (by simp [State.reset, State.powerOn])

theorem witness_ChannelsBalanceKept : State.reset.ChannelsBalance ∧ ∃ t, step State.reset = .next t := by
  exact ⟨by constructor <;> decide, _, rfl⟩

theorem witness_RequestsAnsweredInOrder : State.reset.porstLow = false ∧ (∀ r, Instr.downstreamGrant ≠ .upstreamRequest r)
    ∧ (∀ x, Instr.downstreamGrant ≠ .powerOnReset x) ∧ Instr.downstreamGrant ≠ .porstNLow
    ∧ ∃ t, exec .downstreamGrant State.reset = .next t := by
  exact ⟨rfl, by simp, by simp, by simp, _, rfl⟩

theorem witness_CounterCountsEdges : State.reset.porstLow = false ∧ (∃ t, exec (.encoderEdge .lowToHigh) State.reset = .next t)
    ∧ (∃ t, exec (.powerOnReset 3) State.reset = .next t) ∧ ∃ t, exec .lineTrigger State.reset = .next t := by
  exact ⟨rfl, ⟨_, rfl⟩, ⟨_, rfl⟩, _, rfl⟩

theorem witness_ControlWindowStays : (∀ x, Instr.start ≠ .powerOnReset x) ∧ ∃ t, exec .start State.reset = .next t := by
  exact ⟨by simp, _, rfl⟩

theorem witness_PorstLowSilencesThePart : { State.reset with porstLow := true }.porstLow = true
    ∧ (∀ x, Instr.start ≠ .powerOnReset x) ∧ Instr.start ≠ .porstNLow := by
  exact ⟨rfl, by simp, by simp⟩

/-! ### Witnesses: the ribbon and the lines -/

theorem witness_EncoderEdgeStepsTheDivider : State.reset.quiet = true ∧ State.reset.expiryRaised = false := by decide

theorem witness_LineTriggerPushesAStamp :
    let s : State := { State.reset with csu.inspection := .run, lcu.divider := 0, lcu.counter := 9 }
    let full : State := { s with lcu.fifo := List.replicate 16 1, lcu.resumeArmed := true, ppl.piece := some openPiece }
    (s.porstLow = false ∧ s.closed = true ∧ s.expiryOwed = false ∧ s.triggerOwed = true ∧ s.lcu.fifo.length < 16 ∧ s.ppl.piece = none)
      ∧ (full.porstLow = false ∧ full.closed = true ∧ full.expiryOwed = false ∧ full.triggerOwed = true ∧ 16 ≤ full.lcu.fifo.length ∧ full.fdu.detect.ldiv ≠ 0
        ∧ full.ppl.piece = some openPiece ∧ before openPiece.start full.fdu.scan = false
        ∧ before openPiece.start full.lcu.counter = true)
      ∧ before openPiece.start { full with lcu.counter := 0 }.lcu.counter = false
      ∧ { full with lcu.counter := 0 }.triggerOwed = true := by decide

theorem witness_GapInsertedBesideTheOthers :
    let g : Gap := { start := 100, length := 4 }
    let l : List Gap := [{ start := 0, length := 99 }]
    ({ g with length := 0 } : Gap).length = 0 ∧ g.length ≠ 0 ∧ l.length < 32 ∧ ∀ h ∈ l, g.touches h = false := by decide

/-- 32 ranges that do not touch one another. -/
def fullGaps : List Gap := (List.range 32).map fun k => { start := BitVec.ofNat 32 (4 * k), length := 2 }

theorem witness_GapInsertedBesideTheOthers_apart :
    let g : Gap := { start := 1, length := 4 }
    let far : Gap := { start := 200, length := 4 }
    GapsApart 0 fullGaps ∧ GapsApart 0 [g] ∧ GapsApart 0 [far] ∧ fullGaps.length ≤ 32 ∧ (∃ h ∈ fullGaps, g.touches h = true)
      ∧ fullGaps.length = 32 ∧ (∀ h ∈ fullGaps, far.touches h = false)
      ∧ fullGaps.getLast? = some { start := 124, length := 2 } ∧ dist 0 (5 : Pos) < 2 ^ 31 := by
  refine ⟨⟨?_, ?_, ?_⟩, ⟨?_, ?_, ?_⟩, ⟨?_, ?_, ?_⟩, ?_, ?_, ?_, ?_, ?_, ?_⟩ <;> decide +kernel

theorem witness_ContrastFollowsTheArithmetic :
    2 * (16384 * 1 - (128 : Int) * (64 + ((0 : Nat) : Int))).natAbs ≤ 16384
      ∧ (2 * (16384 * 1 - (128 : Int) * (64 + ((0 : Nat) : Int))).natAbs = 16384 →
          ((128 : Int) * (64 + ((0 : Nat) : Int))).natAbs ≤ 16384 * (1 : Int).natAbs) := by decide

theorem witness_CandidatesByThreshold :
    1 ≤ Detect.powerOn.tlDark ∧ Detect.powerOn.tlDark ≤ Detect.powerOn.thDark ∧ 1 ≤ Detect.powerOn.tlBright
      ∧ Detect.powerOn.tlBright ≤ Detect.powerOn.thBright := by decide

/-- The columns of the witness of `Obligations.AcceptedRunsAreMaximal`: columns 2 and 3 are dark, 4 is as its background. -/
def threeColumns : List Column := [darkColumn 2, darkColumn 3, { darkColumn 4 with pixel := 0x80 }]

theorem witness_AcceptedRunsAreMaximal :
    threeColumns.map Column.index = List.range' 2 threeColumns.length
      ∧ 2 ≤ 3 ∧ 3 < 2 + threeColumns.length ∧ Detect.powerOn.minRun ≤ 3 - 2 + 1
      ∧ (darkColumn 2).candidate Detect.powerOn = some (.dark, true)
      ∧ (darkColumn 3).candidate Detect.powerOn = some (.dark, true)
      ∧ ({ darkColumn 4 with pixel := 0x80 } : Column).candidate Detect.powerOn = none := by decide

theorem test_accepted_run : acceptedRuns Detect.powerOn threeColumns
    = [{ first := 2, last := 3, polarity := .dark, strong := true, peak := 128, sum := 256 }] := by decide

theorem witness_LineTracksBackground :
    (darkColumn 3).takesPart Detect.powerOn = true
      ∧ (∀ r ∈ ([] : List Run), ¬(r.first ≤ (darkColumn 3).index ∧ (darkColumn 3).index ≤ r.last))
      ∧ ({ darkColumn 3 with gain := 63 } : Column).takesPart Detect.powerOn = false
      ∧ (∃ r ∈ [run34], r.first ≤ (darkColumn 3).index ∧ (darkColumn 3).index ≤ r.last)
      ∧ { Detect.powerOn with learnShift := 0 }.learnShift = 0 := by decide

/-- A state with a line in analysis. -/
def analysing (mode : LineMode) (rest : List Line) : State :=
  { State.reset with lcu.lineQueue := line 0 :: rest, fdu.analysis := some mode, fdu.learnCount := 2 }

theorem witness_AnalysisEndTakesEffect :
    ((analysing .learn []).settled = true ∧ (analysing .learn []).lcu.lineQueue = line 0 :: []
      ∧ (analysing .learn []).fdu.analysis = some .learn ∧ (analysing .learn []).fdu.stagedDetect = none
      ∧ (analysing .learn []).fdu.stagedColumns = none ∧ (analysing .learn []).fdu.stagedReference = none)
    ∧ (analysing .run [line 4]).settled = true ∧ (analysing .run [line 4]).lcu.lineQueue = line 0 :: [line 4]
      ∧ (analysing .run [line 4]).fdu.analysis = some .run ∧ (analysing .run [line 4]).fdu.stagedDetect = none
      ∧ (analysing .run [line 4]).fdu.stagedColumns = none ∧ (analysing .run [line 4]).fdu.stagedReference = none := by decide

theorem witness_BlobIdIsTheNextFree : [65535, 1].length < 65535 ∧ nextBlobId [65535, 1] 65534 = 2 := by decide

theorem witness_RunIsPlaced :
    let l : Linking := { works := [Work.ofBlob blob34], lastId := 1, lost := false }
    let none_ : Linking := { l with works := [] }
    let far : Work := Work.ofBlob { blob34 with polarity := .bright }
    let full : Linking := { l with works := List.replicate 64 far }
    (none_.works.filter (Work.matchesRun Detect.powerOn 4 run34) = [] ∧ none_.works.length < 64)
      ∧ (full.works.filter (Work.matchesRun Detect.powerOn 4 run34) = [] ∧ 64 ≤ full.works.length)
      ∧ l.works.filter (Work.matchesRun Detect.powerOn 4 run34) = [Work.ofBlob blob34]
      ∧ (l.works.map (·.blob.id)).Nodup := by decide

theorem witness_RunIsPlaced_merge :
    let v := Work.ofBlob { blob34 with first := 2, last := 2 }
    let w := Work.ofBlob { blob34 with id := 2, first := 1, last := 2, x0 := 4, x1 := 6 }
    let l : Linking := { works := [v, w], lastId := 2, lost := false }
    let joined := l.works.filter (Work.matchesRun Detect.powerOn 4 run34)
    (l.works.map (·.blob.id)).Nodup ∧ joined = [v, w] ∧ (∀ u ∈ joined, dist 0 u.blob.first < 2 ^ 31)
      ∧ (∀ u ∈ joined, dist 0 w.blob.first < dist 0 u.blob.first ∨ (w.blob.first = u.blob.first ∧ w.blob.id ≤ u.blob.id)) := by decide

theorem witness_RunIsPlaced_line :
    let s : State := { State.reset with fdu.blobs := List.replicate 64 { blob34 with polarity := .bright } }
    (State.reset.fdu.blobs.length ≤ 64 ∧ State.reset.fdu.store.length ≤ 512
      ∧ (linkRuns Detect.powerOn 4 [] [blob34] 1 [run34]).lost = false)
      ∧ s.fdu.blobs.length ≤ 64 ∧ s.fdu.store.length ≤ 512 ∧ s.fdu.detect.ldiv ≠ 0
      ∧ (linkRuns s.fdu.detect 4 (s.fdu.store.map Flaw.id) s.fdu.blobs s.fdu.lastBlobId [run34]).lost = true := by decide +kernel

theorem witness_EffectivePointsTable : 255 ≤ 255 ∧ 16 ≤ 16 ∧ (16 : Nat) ≠ 0 ∧ 254 ≠ 255 := by decide

/-! ### Witnesses: planning -/

theorem witness_GradeIsCapped :
    ({ State.reset with fdu.store := [flaw] }.grading false 0 20).disqualified = true
      ∧ ({ State.reset with lcu.gaps := [{ start := 0, length := 10 }] }.grading false 0 20).uninspected ≠ 0 := by decide

theorem witness_DeadlineIsTheLastFeasibleMoment :
    let s : State := { State.reset with lcu.counter := State.reset.deadlineOf 0 }
    let late : State := { State.reset with lcu.counter := State.reset.deadlineOf 0 + 1 }
    s.cdu.link.issueMargin < 2 ^ 24 ∧ s.lcu.counter = s.deadlineOf 0 ∧ late.lcu.counter = late.deadlineOf 0 + 1 := by decide

theorem witness_CommitTakesItsPlace :
    State.reset.cdu.queue.length < 16 ∧ 16 ≤ { State.reset with cdu.queue := List.replicate 16 (issuedEntry 1) }.cdu.queue.length := by
  decide

theorem witness_CutThroughLeavesARemainder :
    reaches flaw.stop 10 = true ∧ (before flaw.first 5 = true ∧ before 5 flaw.stop = true)
      ∧ reaches flaw.stop 0 = false ∧ before flaw.first 0 = false := by decide

theorem test_commit_splits_a_flaw :
    let s : State := { State.reset with fdu.store := [flaw] }
    let t := s.commit .normal 0 { stop := 5, product := none, cutout := false, belowFloor := false }
    t.fdu.store = [{ flaw with first := 5, cutThrough := true, remainderOf := some 1 }]
      ∧ s.assigned .normal 5 = [{ flaw with stop := 5, cutThrough := true }] := by decide +kernel

/-- An open piece whose deadline the counter has reached. -/
def expired : State :=
  { State.reset with ppl.piece := some openPiece, lcu.counter := openPiece.deadline }

theorem witness_DeadlineExpiryCommits :
    expired.settled = true ∧ expired.expiryRaised = true ∧ expired.ppl.piece = some openPiece ∧ expired.ppl.stagedGrade = none
      ∧ expired.ppl.stagedProduct = none ∧ expired.cdu.queue.length < 16
      ∧ (expired.commit .forced openPiece.start (expired.forcedDecision openPiece.start)).normalConditions
          (expired.forcedDecision openPiece.start).stop = false := by decide +kernel

/-- An open piece whose deadline the counter had reached when it was computed. -/
def raised : State := { expired with ppl.raisedAtOnce := true }

theorem witness_DeadlineIsTheLastFeasibleMoment_raised :
    raised.porstLow = false ∧ raised.expiryOwed = true ∧ (raised.clearOutputs.event State.expiry).expiryOwed = false
      ∧ (raised.lcu.counter - raised.deadlineOf openPiece.start).toNat < 2 ^ 31
      ∧ ¬(State.reset.lcu.counter - State.reset.deadlineOf openPiece.start).toNat < 2 ^ 31 := by decide +kernel

/-- A planner with the whole of its first product scanned, at a counter, with flaws in the store. -/
def scanned (counter : Pos) (store : List Flaw) (blobs : List Blob := []) : State :=
  { State.reset with
    lcu.counter := counter, ppl.piece := some openPiece, ppl.scanSeen := true, fdu.scan := 40000, fdu.store := store, fdu.blobs := blobs }

theorem witness_DeadlineExpiryCommits_product :
    let s := scanned 0 []
    firstProduct (fun j => s.usable 0 j ∧ s.meetsFloor false 0 j) 0 ∧ firstProduct (fun j => s.usable 0 j ∧ s.meetsFloor true 0 j) 0 := by
  unfold firstProduct State.usable State.reachable State.meetsFloor State.endOf; decide +kernel

theorem witness_DeadlineExpiryCommits_cutout :
    let s := scanned 0 [flaw]
    let open_ := scanned 0 [flaw] [blob34]
    let late := scanned 300000 [flaw]
    let x := settleCut 50 s.extents s.extents.length (laterOf (0 + BitVec.ofNat 32 2000) (flaw.stop + BitVec.ofNat 32 50))
    let c : Choice := { stop := 2000, product := none, cutout := true, belowFloor := false }
    ((∀ i, ¬(s.usable 0 i ∧ s.meetsFloor false 0 i)) ∧ ∀ i, ¬(s.usable 0 i ∧ s.meetsFloor true 0 i))
      ∧ (s.cutoutStep .normal 0 = .commits c ∧ s.cutoutStep .forced 0 = .commits c)
      ∧ ((∀ i, ¬(open_.usable 0 i ∧ open_.meetsFloor false 0 i)) ∧ open_.cutoutStep .normal 0 = .waits)
      ∧ (s.ppl.lmax < 2 ^ 31 ∧ s.cutoutFlaws .normal 0 = [{ first := 0, id := 1, stop := 10 }] ∧ x = 2000 ∧ s.feasible x = true
        ∧ ∀ b ∈ s.fdu.blobs, before b.first x = false)
      ∧ (late.cutoutFlaws .normal 0 = [{ first := 0, id := 1, stop := 10 }] ∧ late.feasible x = false)
      ∧ open_.feasible x = true ∧ open_.fdu.blobs = [blob34] ∧ before blob34.first x = true := by
  unfold State.usable State.reachable State.meetsFloor State.endOf; decide +kernel

theorem witness_DeadlineExpiryCommits_fallback :
    let s := { scanned 0 [] with fdu.scan := 0 }
    let late := { scanned 300000 [] with fdu.scan := 0 }
    ((∀ i, ¬(s.usable 0 i ∧ s.meetsFloor false 0 i)) ∧ (∀ i, ¬(s.usable 0 i ∧ s.meetsFloor true 0 i))
      ∧ s.cutoutFlaws .normal 0 = [] ∧ s.cutoutStep .normal 0 = .fallThrough ∧ s.cutoutStep .forced 0 = .fallThrough
      ∧ firstProduct (s.usable 0) 0 ∧ firstProduct (s.reachable 0) 0)
    ∧ (∀ i, ¬(late.usable 0 i ∧ late.meetsFloor true 0 i)) ∧ late.cutoutStep .forced 0 = .fallThrough
      ∧ (∀ i, ¬late.reachable 0 i) ∧ late.cutoutStep .normal 0 = .fallThrough ∧ ∀ i, ¬late.usable 0 i := by
  unfold firstProduct State.usable State.reachable State.meetsFloor State.endOf; decide +kernel

theorem witness_DeadlineExpiryCommits_settle :
    (dist 0 (90 : Pos) < 2 ^ 30 ∧ dist 0 (110 : Pos) < 2 ^ 30) ∧ (dist 0 (100 : Pos) < 2 ^ 30 ∧ dist 0 (200 : Pos) < 2 ^ 30)
      ∧ (50 : Nat) < 2 ^ 16 ∧ dist 0 (60 : Pos) < 2 ^ 30 ∧ settleCut 50 [(90, 110), (100, 200)] 2 60 = 250 := by decide

theorem witness_DeadlineExpiryCommits_check :
    let s := scanned 0 []
    let c : Choice := { stop := 30000, product := some 0, cutout := false, belowFloor := false }
    s.ppl.stagedGrade = none ∧ s.ppl.stagedProduct = none ∧ s.ppl.piece = some openPiece ∧ s.ppl.scanSeen = true
      ∧ ((s.fdu.scan - openPiece.start).toNat < 2 ^ 31
        ∧ s.ppl.lmax + s.ppl.product.settle ≤ (s.fdu.scan - openPiece.start).toNat)
      ∧ s.fdu.blobs = [] ∧ s.normalDecision openPiece.start = some c ∧ s.cdu.queue.length < 16
      ∧ (s.commit .normal openPiece.start c).normalConditions c.stop = false
      ∧ ¬State.reset.ppl.lmax + State.reset.ppl.product.settle ≤ (openPiece.start - openPiece.start).toNat := by decide +kernel

/-- A MANUAL_CUT at 2000 is next, with an open piece. -/
def manual (e : Word) : State := ready 0x41 e (s := { State.reset with ppl.piece := some openPiece })

theorem witness_ManualCut :
    ((ready 0x41 7).readyFor 0 ∧ ((ready 0x41 7).slot 0).command.code = 0x41 ∧ (ready 0x41 7).ppl.stagedGrade = none
      ∧ (ready 0x41 7).ppl.stagedProduct = none ∧ (ready 0x41 7).manualRefusal ((ready 0x41 7).slot 0).command.arg1 = some 1)
    ∧ (manual 2000).readyFor 0 ∧ ((manual 2000).slot 0).command.code = 0x41 ∧ (manual 2000).ppl.stagedGrade = none
      ∧ (manual 2000).ppl.stagedProduct = none ∧ (manual 2000).ppl.piece = some openPiece
      ∧ (manual 2000).manualRefusal ((manual 2000).slot 0).command.arg1 = none
      ∧ ((manual 2000).commit .manual 0 { stop := 2000, product := none, cutout := false, belowFloor := false }).normalConditions 2000
          = false := by
  unfold State.readyFor; decide +kernel

theorem witness_ManualCut_reasons :
    State.reset.ppl.piece = none ∧ (manual 0).ppl.piece = some openPiece
      ∧ dist openPiece.start 1999 < (manual 0).ppl.product.minStrip ∧ (manual 0).ppl.product.minStrip ≤ dist openPiece.start 2000
      ∧ dist openPiece.start 2000 < 2 ^ 31
      ∧ { manual 0 with lcu.counter := 0x20000000 }.feasible 2000 = false ∧ (manual 0).feasible 2000 = true
      ∧ 16 ≤ { manual 0 with cdu.queue := List.replicate 16 (issuedEntry 1) }.cdu.queue.length
      ∧ { manual 0 with cdu.queue := List.replicate 16 (issuedEntry 1) }.feasible 2000 = true := by decide +kernel

/-! ### Witnesses: cut dispatch -/

theorem witness_TagsAndFrames :
    tagAfter 3 ≠ (9 : Byte) ∧ tagAfter 8 = (9 : Byte)
      ∧ (dispatch (.pollXfer 0 true) [] .idle).cdu.engine = .pollXfer 0 true
      ∧ (dispatch (.cutXfer 0 7 5 1 true) [] .idle).cdu.engine = .cutXfer 0 7 5 1 true := by decide

theorem witness_EntryDueStartsTheTransfer :
    let s := dispatch .gap [issuedEntry 1, waitingEntry 2 50] .idle 50
    s.closed = true ∧ s.porstLow = false ∧ s.expiryOwed = false ∧ s.cdu.missTest = false ∧ s.cdu.timeoutTest = false ∧ s.cdu.engine = .gap
      ∧ s.cdu.queue = [issuedEntry 1] ++ waitingEntry 2 50 :: [] ∧ (∀ x ∈ [issuedEntry 1], x.isWaiting = false)
      ∧ (waitingEntry 2 50).isWaiting = true ∧ reaches (waitingEntry 2 50).piece.fire s.lcu.counter = true
      ∧ (s.bridge 0).state = .idle ∧ (∀ c, c < (0 : Fin 4) → (s.bridge c).state ≠ .idle) := by decide

theorem witness_MissTest :
    let s : State := { dispatch .gap [waitingEntry 2 50, waitingEntry 3 51] .offline 450 with cdu.missTest := true }
    let missed := s.cdu.queue.filter fun e =>
      decide (e.state = .waiting false) && reaches (e.piece.fire + BitVec.ofNat 32 s.cdu.missTol) s.lcu.counter
    s.porstLow = false ∧ s.closed = true ∧ s.expiryOwed = false ∧ s.cdu.missTest = true ∧ missed ≠ []
      ∧ { State.reset with cdu.missTest := true }.cdu.queue = [] := by decide

theorem witness_TimeoutTest :
    let s : State := { dispatch .gap [issuedEntry 2] (.busy 5 2) 40000 with cdu.timeoutTest := true }
    let out : Fin 4 → Entry → Bool := fun b e =>
      e.issued.any fun x => decide (x.1 = b) && decide (s.cdu.link.cutTimeout ≤ dist x.2.2 s.lcu.counter)
    s.porstLow = false ∧ s.expiryOwed = false ∧ s.cdu.timeoutTest = true ∧ s.cdu.queue.any (out 0) = true ∧ s.cdu.queue.any (out 1) = false := by decide

theorem witness_CutTransferEnds :
    let s := dispatch (.cutXfer 0 2 5 1 true) [{ waitingEntry 2 50 with state := .waiting true }] .idle 50
    s.settled = true ∧ s.cdu.engine = .cutXfer 0 2 5 1 true ∧ (true = true ∨ s.cdu.lckHeld = false) ∧ s.cdu.stagedLink = none
      ∧ s.cdu.newMask = none ∧ (s.bridge 0).misses < 2
      ∧ (∀ x ∈ s.cdu.queue, x.piece.seq = 2 → reaches (x.piece.fire + BitVec.ofNat 32 s.cdu.missTol) s.lcu.counter = false) := by
  decide

theorem witness_DoneCutsThePiece :
    let s := dispatch (.pollXfer 0 true) [issuedEntry 2] (.busy 5 2) 50
    s.settled = true ∧ s.cdu.engine = .pollXfer 0 true ∧ (true = true ∨ s.cdu.lckHeld = false) ∧ s.cdu.stagedLink = none
      ∧ s.cdu.newMask = none ∧ s.cdu.mask.getLsbD (0 : Fin 4).val = true ∧ (s.bridge 0).state = .busy 5 (issuedEntry 2).piece.seq
      ∧ s.entryOf (issuedEntry 2).piece.seq = some (issuedEntry 2) ∧ (0x30 : Byte).toNat / 16 = 3
      ∧ ((0x30 : Byte).toNat + (5 : Byte).toNat + (0xCB : Byte).toNat) % 256 = 0 := by decide

/-- Bridge 1, in a state, with a miss count and its enable bit, is polled; an entry is issued to it. -/
def polled (st : BridgeState) (misses : Nat) (bit : Bool) (counter : Pos := 50) : State :=
  { dispatch (.pollXfer 0 true) [issuedEntry 2] st counter with
    cdu.bridges := State.reset.cdu.bridges.set 0 { bridgeIn st with misses := misses }, cdu.mask := if bit then 1 else 0 }

theorem witness_DoneCutsThePiece_states :
    ∀ st ∈ [BridgeState.busy 5 2, .offline, .idle, .notReady, .fault], ∀ misses ∈ [0, 2], ∀ bit ∈ [true, false],
      let s := polled st misses bit
      s.settled = true ∧ s.cdu.engine = .pollXfer 0 true ∧ (true = true ∨ s.cdu.lckHeld = false) ∧ s.cdu.stagedLink = none
        ∧ s.cdu.newMask = none ∧ (s.cdu.queue.map fun x => x.piece.seq).Nodup ∧ (s.bridge 0).state = st
        ∧ issuedEntry 2 ∈ s.cdu.queue ∧ (issuedEntry 2).piece.seq = 2 ∧ (issuedEntry 2).isWaiting = false
        ∧ s.cdu.mask.getLsbD 0 = bit ∧ min 3 ((s.bridge 0).misses + 1) = misses + 1
        ∧ reaches ((issuedEntry 2).piece.fire + BitVec.ofNat 32 s.cdu.missTol) s.lcu.counter = false := by decide +kernel

theorem witness_DoneCutsThePiece_late :
    let s := polled (.busy 5 2) 0 true 401
    reaches ((issuedEntry 2).piece.fire + BitVec.ofNat 32 s.cdu.missTol) s.lcu.counter = true := by decide +kernel

theorem witness_DoneCutsThePiece_responses :
    ∀ kind ∈ [1, 2, 3, 4], ∀ tag ∈ [(5 : Byte), 6],
      let status := BitVec.ofNat 8 (16 * kind + 2)
      let check := checkByte [status, tag]
      (status.toNat + tag.toNat + check.toNat) % 256 = 0 ∧ status.toNat / 16 = kind ∧ (tag = 5 ∨ tag ≠ 5)
        ∧ ¬(status.toNat + tag.toNat + (check + 1).toNat) % 256 = 0 := by decide

theorem witness_NewRound :
    let s := dispatch .gap [] .offline
    (s.quiet = true ∧ (s.bridge 0).state ≠ .disabled ∧ (∀ c, c < (0 : Fin 4) → (s.bridge c).state = .disabled)
      ∧ s.cdu.engine = .gap ∧ s.cdu.gapRunning = true)
    ∧ (dispatch .stuck [] .offline).quiet = true ∧ (dispatch .stuck [] .offline).cdu.engine = .stuck := by decide

theorem witness_AbandonedTransfer :
    let s := dispatch (.pollXfer 0 true) [issuedEntry 2] (.busy 5 2)
    let t := dispatch (.cutXfer 0 2 5 1 false) [{ waitingEntry 2 50 with state := .waiting true }] .idle
    (s.settled = true ∧ s.cdu.stagedLink = none ∧ s.cdu.newMask = none ∧ s.cdu.engine = .pollXfer 0 true)
      ∧ t.settled = true ∧ t.cdu.stagedLink = none ∧ t.cdu.newMask = none ∧ t.cdu.engine = .cutXfer 0 2 5 1 false := by decide

theorem witness_AbandonedTransfer_cases :
    let order : List Entry := [{ waitingEntry 2 50 with state := .waiting true }]
    let cut := fun (st : BridgeState) (misses : Nat) (mask : BitVec 4) =>
      ({ dispatch (.cutXfer 0 2 5 1 true) order st with
        cdu.bridges := State.reset.cdu.bridges.set 0 { bridgeIn st with misses := misses }, cdu.mask := mask } : State)
    (∀ x ∈ [(BridgeState.idle, 0, (1 : BitVec 4)), (.idle, 2, 1), (.idle, 2, 0), (.idle, 0, 0), (.disabled, 0, 0)],
      let s := cut x.1 x.2.1 x.2.2
      s.settled = true ∧ s.cdu.stagedLink = none ∧ s.cdu.newMask = none ∧ s.cdu.engine = .cutXfer 0 2 5 1 true
        ∧ (s.bridge 0).state = x.1 ∧ min 3 ((s.bridge 0).misses + 1) = x.2.1 + 1 ∧ s.cdu.mask.getLsbD 0 = x.2.2.getLsbD 0
        ∧ (s.bridge 1).state = .disabled)
    ∧ (polled (.busy 5 2) 2 true).settled = true ∧ (polled (.busy 5 2) 2 false).settled = true
      ∧ ((polled (.busy 5 2) 2 false).bridge 0).state = .busy 5 2 ∧ (polled (.busy 5 2) 2 false).cdu.mask.getLsbD 0 = false
      ∧ (polled .disabled 0 false).settled = true ∧ ((polled .disabled 0 false).bridge 0).state = .disabled := by decide +kernel

theorem witness_DelayedStart :
    let s := dispatch (.pollXfer 0 false) [] .offline
    let t := dispatch (.cutXfer 0 2 5 1 false) [{ waitingEntry 2 50 with state := .waiting true }] .idle
    (s.quiet = true ∧ s.cdu.engine = .pollXfer 0 false) ∧ t.quiet = true ∧ t.cdu.engine = .cutXfer 0 2 5 1 false := by decide

/-! ### Witnesses: memory transit -/

/-- A transit-queue entry. -/
def entry (r : Request) (st : TransitState) (cls : Option (List BeatClass)) (answer : List Byte := []) : TransitEntry :=
  { req := r, state := st, classes := cls, answer := answer }

/-- The part with a transit queue and requests in flight. -/
def transit (l : List TransitEntry) (flight : List InFlight := []) : State :=
  { State.reset with tru.transit := l, tru.flight := flight }

theorem witness_UpstreamRequestQueues :
    let full := transit (List.replicate 8 (entry (read1 0 1) .forwarded none))
    (State.reset.quiet = true ∧ (read1 0 1).wellFormed = true ∧ State.reset.tru.transit.length < 8)
      ∧ full.quiet = true ∧ 8 ≤ full.tru.transit.length := by decide

theorem witness_FullyMaskedWriteIsAnswered :
    let hit := entry (write1 0x90000000 1) .pending (some [.protect 0])
    let clear := entry (write1 0x90000000 0) .pending (some [.plain])
    let behind := entry (read1 0 1) .pending none
    let s := transit [hit, behind]
    let t := transit [clear, behind]
    (s.porstLow = false ∧ s.closed = true ∧ s.expiryOwed = false ∧ s.tru.transit = hit :: [behind] ∧ hit.state = .pending ∧ hit.fullyMasked = true
      ∧ (∀ x ∈ [behind], x.state = .pending) ∧ hit.hits ≠ 0)
    ∧ t.closed = true ∧ t.expiryOwed = false ∧ clear.fullyMasked = true ∧ clear.hits = 0 := by decide

theorem witness_MaskingClearsPartOwnedBytes :
    let s := State.reset
    let base := s.tru.controlBase
    let r := write1 0x1001E0 0xFFFFFFFF
    (∀ a ∈ [base, base + 0xFF, base + 0x100, base + 0x1FF, base + 0x200, base + 0x21F, base + 0x220, base + 4095], s.controlByte a)
      ∧ (¬s.controlByte (base - 1) ∧ ¬s.controlByte (base + 4096))
      ∧ r.wellFormed = true ∧ r.kind = .write ∧ base % 32 = 0 ∧ s.tru.params.image.beatAligned
      ∧ (∀ k : Fin 6, s.tru.params.protect[k].beatAligned) ∧ r.beats[0]? = some (beat 0xFFFFFFFF)
      ∧ (TransitEntry.wire { req := r, state := .pending, classes := some (s.classify r), answer := [] }).beats[0]?
        = some (beat 0x0FFFFFFF) := by
  unfold State.controlByte Window.beatAligned; decide +kernel

theorem witness_MaskingClearsPartOwnedBytes_windows :
    let s : State := { State.reset with
      tru.params.image := { base := 0x4000, size := 4096 }
      tru.params.protect := Vector.replicate 6 { base := 0x4000, size := 8192 } }
    (¬s.controlByte 0x4000 ∧ s.tru.params.image.base ≤ 0x4000)
      ∧ (¬s.controlByte 0x5FFF ∧ ¬0x5FFF < s.tru.params.image.base + s.tru.params.image.size
        ∧ 0x5FFF < s.tru.params.protect[0].base + s.tru.params.protect[0].size ∧ s.beatClass 0x5FFF = .protect 0)
      ∧ ¬s.controlByte 0x6000 ∧ (∀ k : Fin 6, ¬0x6000 < s.tru.params.protect[k].base + s.tru.params.protect[k].size) := by
  unfold State.controlByte; decide +kernel

theorem witness_ArbiterGrants :
    let e := entry (read1 0 1) .pending (some [.plain])
    let r := own .tableRead .read
    let both : State := { transit [e] with tru.own := [r], tru.share := 3 }
    let due : State := { both with tru.share := 4 }
    (State.reset.quiet = true ∧ State.reset.transitReady = none ∧ State.reset.ownReady = none)
      ∧ (both.quiet = true ∧ both.transitReady = some e ∧ both.ownReady = some r ∧ both.tru.share < both.tru.params.ownShare)
      ∧ (due.quiet = true ∧ due.ownReady = some r ∧ due.tru.params.ownShare ≤ due.tru.share)
      ∧ (transit [e]).transitReady = some e ∧ (transit [e]).ownReady = none := by decide

theorem witness_ArbiterGrants_wire : let r := { own (.result 0 0 0) .write with data := List.replicate 32 1 }
    r.kind = .write ∧ r.data.length = 32 * r.beats ∧ (own .tableRead .read).kind = .read := by decide

/-- The part with an image window of two lines of 256 pixels, an assembly, stamps and lines. -/
def imaging (a : Option Assembly) (fifo : List Pos) (lines : List Line) : State :=
  { State.reset with
    tru.params.image := { base := 0x4000, size := 4096 }, fdu.detect.linePx := 256, csu.inspection := .run
    lcu.assembly := a, lcu.fifo := fifo, lcu.lastStamp := 100, lcu.lineQueue := lines }

/-- A line in assembly that has received `n` beats. -/
def inLine (n : Nat) : Assembly :=
  { slot := 0, stamp := 104, extrapolated := false, received := n, next := 0x4000 + 32 * n, pixels := [] }

theorem witness_ArbiterGrants_image :
    let full : BitVec 32 := BitVec.allOnes 32
    let px := (imaging none [] []).fdu.detect.linePx
    let window := (imaging none [] []).tru.params.image
    0 < px ∧ (imaging none [] []).fdu.detect.ldiv ≠ 0 ∧ (5 : BitVec 32) ≠ full ∧ 32 < px
      ∧ (0x4100 = window.base + 1 * px ∧ 1 < window.size / px)
      ∧ ((imaging none [90, 108] []).lcu.fifo.takeWhile fun p => !before 100 p) = [90]
      ∧ 32 * ((inLine 1).received + 1) < px ∧ (inLine 1).next = 0x4020 ∧ px ≤ 32 * ((inLine 7).received + 1)
      ∧ (∀ lines ∈ [[], [line 0], [line 0, line 4]],
        (imaging (some (inLine 7)) [] lines).lcu.assembly = some (inLine 7)
          ∧ (imaging (some (inLine 7)) [] lines).lcu.lineQueue = lines ∧ (imaging (some (inLine 7)) [] lines).fdu.stagedDetect = none)
      ∧ (imaging none [] []).csu.inspection = .run ∧ State.reset.csu.inspection = .off := by decide

theorem test_line_is_broken :
    let t := (imaging (some (inLine 3)) [108] []).imageBeat 0x4100 (List.replicate 32 1) (BitVec.allOnes 32)
    t.lcu.gaps = [{ start := 104, length := 4 }] ∧ t.sac.counters.lost[1] = 1 ∧ t.lcu.lastStamp = 108
      ∧ t.lcu.assembly.map Assembly.slot = some 1 := by decide +kernel

theorem witness_HazardHold :
    let r := entry (read1 0x2000 1) .pending (some [.plain])
    let w := entry (write1 0x2000 1) .pending (some [.plain])
    let out := own .snapshot .write
    (∀ e ∈ [r, w], (transit [e] [.own out]).quiet = true ∧ (transit [e] [.own out]).candidate = some e
      ∧ (transit [e] [.own out]).transitReady = some e)
    ∧ InFlight.own out ∈ (transit [r] [.own out]).tru.flight ∧ out.kind = .write ∧ out.addr ≤ 31 ∧ 31 < out.addr + 32 * out.beats
      ∧ r.req.kind = .read ∧ w.req.kind = .write := by decide

theorem test_granted_past_a_write :
    (State.grant (transit [entry (read1 0x2000 1) .pending (some [.plain])] [.own (own .snapshot .write)])).tru.flight
      = [.own (own .snapshot .write), .transit (read1 0x2000 1)] := by decide

theorem test_held_by_a_write :
    (State.grant (transit [entry (read1 0 1) .pending (some [.plain])] [.own (own .snapshot .write)])).tru.flight
      = [.own (own .snapshot .write)] := by decide

theorem witness_DownstreamAnswer :
    let e := entry (read1 0 1) .forwarded none
    let rest := [entry (write1 0 1) .ready none, entry (read1 64 1) .forwarded none]
    let s := transit (e :: rest) [.transit (read1 0 1), .transit (read1 64 1)]
    let w := entry (write1 0 1) .forwarded none
    (s.quiet = true ∧ s.tru.flight = .transit (read1 0 1) :: [.transit (read1 64 1)] ∧ s.tru.transit = e :: rest ∧ e.state = .forwarded
      ∧ (List.replicate 32 (1 : Byte)).length = (if e.req.kind = .read then 32 * e.req.length else 0))
    ∧ (transit [w] [.transit (write1 0 1)]).quiet = true ∧ ([] : List Byte).length = (if w.req.kind = .read then 32 * w.req.length else 0) := by
  decide

theorem witness_WaitingRequestIsPlaced :
    let s : State := { State.reset with tru.waiting := [own .snapshot .write], tru.own := List.replicate 31 (own .snapshot .write) }
    s.porstLow = false ∧ s.closed = true ∧ s.expiryOwed = false ∧ s.tru.waiting = own .snapshot .write :: [] ∧ s.tru.own.length < 32 := by decide

/-! ### Witnesses: record output -/

/-- A record. -/
def record : Record := { seq := 1, body := .flaw { piece := 1, flaw := flaw } }

/-- The part with channel 0 in an activity, its request in flight. -/
def channelBusy (a : Activity) (p : OwnPurpose) (k : ReqKind) (f : Channel → Channel) : State :=
  { withChannel fun c => f { c with state := .active, activity := a } with tru.flight := [.own (own p k)] }

/-- A loaded descriptor of 4 records. -/
def descriptor : Descriptor := { buffer := 64, capacity := 4, flag := true, eol := false }

theorem witness_DescriptorReturns :
    let s := channelBusy .fetching (.descriptor 0) .read fun c => { c with queue := [record] }
    let good : List Byte := toLe 8 64 ++ toLe 2 1 ++ reserved 22
    let bad : List Byte := reserved 32
    s.quiet = true ∧ s.tru.flight = .own (own (.descriptor 0) .read) :: [] ∧ good.length = 32 * (own (.descriptor 0) .read).beats
      ∧ bad.length = 32 * (own (.descriptor 0) .read).beats
      ∧ (s.channel 0).state = .active ∧ (s.channel 0).activity = .fetching ∧ (s.channel 0).pendingOp = .none
      ∧ (s.channel 0).queue.head? = some record
      ∧ field bad 8 2 = 0 ∧ ¬(field good 8 2 = 0 ∨ field good 0 5 % 32 ≠ 0 ∨ 2 ^ 40 < field good 0 5 + field good 8 2 * 32) := by
  decide

theorem witness_RecordIsWritten :
    let s := fun (remaining index : Nat) (restart : Option (Nat × Bool)) (auto : Bool) =>
      channelBusy .writing (.record 0) .write fun c =>
        { c with
          queue := [record], entry := some descriptor, remaining := remaining, index := index, restart := restart, autoRestart := auto }
    ∀ x ∈ [(2, 0, none, false), (1, 0, none, false), (1, 1, none, false), (1, 254, none, false), (1, 255, some (64, true), false),
        (1, 255, none, true), (1, 255, none, false)],
      let s := s x.1 x.2.1 x.2.2.1 x.2.2.2
      s.quiet = true ∧ s.tru.flight = .own (own (.record 0) .write) :: []
        ∧ (s.channel 0).state = .active ∧ (s.channel 0).activity = .writing
        ∧ (s.channel 0).pendingOp = .none ∧ (s.channel 0).entry = some descriptor
        ∧ (s.channel 0).queue = record :: [] ∧ (s.channel 0).remaining = x.1 ∧ (s.channel 0).index = x.2.1
        ∧ (s.channel 0).restart = x.2.2.1 ∧ (s.channel 0).autoRestart = x.2.2.2 ∧ (s.stopWord 0).toNat % 256 = 0 := by decide +kernel

theorem witness_StopWordMovesAHeldChannel :
    let held := fun index : Nat => withChannel fun c => { c with state := .held, index := index, entry := some descriptor }
    State.reset.quiet = true ∧ (1 : BitVec 4) ≠ 0 ∧ (State.reset.channel 0).state ≠ .held
      ∧ ∀ index ∈ [0, 254], (held index).quiet = true ∧ ((held index).channel 0).state = .held
        ∧ (mergeWord ((held index).stopWord 0) 3 1).toNat % 256 ≠ ((held index).channel 0).index
        ∧ ((held index).channel 0).eolSet = false ∧ ((held index).channel 0).index ≠ 255
        ∧ ((held index).channel 0).pendingOp = .none := by decide

theorem witness_StopWordMovesAHeldChannel_eol :
    ∀ x ∈ [(some (64, true), false), (none, true), ((none : Option (Nat × Bool)), false)],
      let s := withChannel fun c =>
        { c with state := .held, index := 255, entry := some { descriptor with eol := true }, restart := x.1, autoRestart := x.2 }
      s.quiet = true ∧ (s.channel 0).state = .held ∧ (mergeWord (s.stopWord 0) 3 1).toNat % 256 ≠ (s.channel 0).index
        ∧ (s.channel 0).eolSet = true ∧ (s.channel 0).index = 255 ∧ (s.channel 0).pendingOp = .none
        ∧ (s.channel 0).restart = x.1 ∧ (s.channel 0).autoRestart = x.2 := by decide

/-- A CHANNEL command for channel 0 is next, the channel in a state. -/
def channelCommand (op : Nat) (table : Word) (f : Channel → Channel) (ch : Nat := 0) : State :=
  ready 0x30 (BitVec.ofNat 32 (ch + 256 * op)) table 0 (withChannel f)

theorem witness_ChannelStart :
    let s := fun (table : Word) (st : ChannelState) => channelCommand 1 table fun c => { c with state := st }
    (∀ x ∈ [(0x2000, ChannelState.stopped), (0x2000, .ended), (0x2000, .fault), (0x2000, .active), (0x2000, .held), (0x2000, .paused),
        (0x2001, .stopped)],
      (s x.1 x.2).readyFor 0 ∧ ((s x.1 x.2).slot 0).command.code = 0x30
        ∧ ((s x.1 x.2).slot 0).command.arg1.toNat / 256 % 256 = 1 ∧ ((s x.1 x.2).slot 0).command.arg1.toNat % 256 = (0 : Fin 3).val
        ∧ ((s x.1 x.2).channel 0).state = x.2 ∧ ((s x.1 x.2).slot 0).command.arg2 = x.1)
    ∧ (channelCommand 1 0 id 3).readyFor 0 ∧ ((channelCommand 1 0 id 3).slot 0).command.arg1.toNat / 256 % 256 = 1
      ∧ 3 ≤ ((channelCommand 1 0 id 3).slot 0).command.arg1.toNat % 256 := by
  unfold State.readyFor; decide +kernel

theorem witness_ChannelHalts :
    let s := fun (op : Nat) (st : ChannelState) (a : Activity) => channelCommand op 0 fun c => { c with state := st, activity := a }
    ∀ x ∈ [(2, ChannelState.active, Activity.none), (2, .active, .writing), (2, .held, .none), (3, .paused, .none), (3, .active, .none),
        (4, .held, .none), (4, .active, .fetching)],
      (s x.1 x.2.1 x.2.2).readyFor 0 ∧ ((s x.1 x.2.1 x.2.2).slot 0).command.code = 0x30
        ∧ ((s x.1 x.2.1 x.2.2).slot 0).command.arg1.toNat % 256 = (0 : Fin 3).val
        ∧ (∀ r ∈ (s x.1 x.2.1 x.2.2).tru.waiting, r.purpose ≠ .descriptor 0 ∧ r.purpose ≠ .record 0)
        ∧ ((s x.1 x.2.1 x.2.2).slot 0).command.arg1.toNat / 256 % 256 = x.1
        ∧ ((s x.1 x.2.1 x.2.2).channel 0).state = x.2.1 ∧ ((s x.1 x.2.1 x.2.2).channel 0).activity = x.2.2 := by
  unfold State.readyFor; decide +kernel

theorem witness_ChannelHalts_pending :
    let s := fun (a : Activity) (p : OwnPurpose) (k : ReqKind) (f : Channel → Channel) =>
      ({ channelBusy a p k f with csu.running := [{ slot := 0, phase := .channelOp 0 }] } : State)
    let write := fun (op : PendingOp) (remaining index : Nat) (restart : Option (Nat × Bool)) (auto : Bool) =>
      s .writing (.record 0) .write fun c => { c with
        queue := [record], entry := some descriptor, remaining := remaining, index := index, pendingOp := op, restart := restart
        autoRestart := auto }
    let fetch := fun op : PendingOp => s .fetching (.descriptor 0) .read fun c => { c with queue := [record], pendingOp := op }
    (∀ op ∈ [PendingOp.pause, .terminate],
      (∀ x ∈ [(2, 0, none, false), (1, 0, none, false), (1, 1, none, false), (1, 255, some (64, true), false), (1, 255, none, true),
          (1, 255, none, false)],
        let s := write op x.1 x.2.1 x.2.2.1 x.2.2.2
        s.quiet = true ∧ s.tru.flight = .own (own (.record 0) .write) :: []
          ∧ s.csu.running = [{ slot := 0, phase := .channelOp 0 }] ∧ (s.channel 0).state = .active
          ∧ (s.channel 0).activity = .writing ∧ (s.channel 0).queue = record :: [] ∧ (s.channel 0).entry = some descriptor
          ∧ (s.channel 0).pendingOp = op ∧ (s.channel 0).remaining = x.1 ∧ (s.channel 0).index = x.2.1
          ∧ (s.channel 0).restart = x.2.2.1 ∧ (s.channel 0).autoRestart = x.2.2.2 ∧ (s.stopWord 0).toNat % 256 = 0)
      ∧ (fetch op).quiet = true ∧ (fetch op).tru.flight = .own (own (.descriptor 0) .read) :: []
        ∧ (fetch op).csu.running = [{ slot := 0, phase := .channelOp 0 }] ∧ ((fetch op).channel 0).state = .active
        ∧ ((fetch op).channel 0).activity = .fetching ∧ ((fetch op).channel 0).pendingOp = op)
    ∧ (own (.descriptor 0) .read).beats = 1 ∧ (reserved 32).length = 32 ∧ field (reserved 32) 8 2 = 0
      ∧ field (toLe 8 64 ++ toLe 2 1 ++ reserved 22) 0 5 = 64 := by decide +kernel

/-! ### Witnesses: shifts and commands -/

theorem witness_TimerSteps :
    let run : State := { State.reset with sac.running := true }
    let coarse : State := { run with sac.params.coarse := true, sac.tickCount := 998 }
    let last : State := { run with sac.stepCount := 28799999 }
    (State.reset.quiet = true ∧ State.reset.sac.expired = false ∧ State.reset.sac.running = false)
      ∧ (run.quiet = true ∧ run.sac.params.coarse = false ∧ ¬run.sac.params.length ≤ run.sac.stepCount + 1)
      ∧ (coarse.quiet = true ∧ coarse.sac.params.coarse = true ∧ coarse.sac.tickCount + 1 < 1000)
      ∧ 1000 ≤ { coarse with sac.tickCount := 999 }.sac.tickCount + 1
      ∧ last.quiet = true ∧ last.sac.running = true ∧ last.sac.params.length ≤ last.sac.stepCount + 1 := by decide

theorem witness_ShiftCloses :
    let due : State := { State.reset with sac.running := true, sac.expired := true }
    let single : State := { due with sac.params.repeats := false }
    let enabled := ready 0x20 (s := { State.reset with sac.params.enabled := true })
    (due.quiet = true ∧ due.sac.expired = true ∧ (due.channel 2).queue.length < 4 ∧ due.sac.params.repeats = true)
      ∧ (single.quiet = true ∧ single.sac.expired = true ∧ single.sac.params.repeats = false)
      ∧ ((ready 0x20).readyFor 0 ∧ ((ready 0x20).slot 0).command.code = 0x20 ∧ ((ready 0x20).channel 2).queue.length < 4
        ∧ (ready 0x20).sac.params.enabled = false)
      ∧ enabled.readyFor 0 ∧ (enabled.slot 0).command.code = 0x20 ∧ enabled.sac.params.enabled = true := by
  unfold State.readyFor; decide +kernel

theorem witness_SlotWriteQueues :
    let data : List Byte := 0x20 :: List.replicate 31 0
    let copy : Vector Word 6 := Vector.ofFn fun k : Fin 6 =>
      mergeWord (State.reset.slot 0).copy[k] (BitVec.ofNat 32 (field data (4 * k.val) 4)) ((1 : BitVec 32).extractLsb' (4 * k.val) 4)
    State.reset.quiet = true ∧ (1 : BitVec 32).getLsbD 0 = true ∧ copy[0].toNat % 256 ≠ 0 ∧ (State.reset.slot 0).state = .free
      ∧ ((ready 0x20).slot 0).state ≠ .free ∧ (ready 0x20).quiet = true ∧ (0 : BitVec 32).getLsbD 0 = false := by decide

theorem witness_AcknowledgeAndEnable : { State.reset with csu.causes := 3 }.quiet = true
    ∧ ({ State.reset with csu.causes := 3 } : State).csu.causes &&& ~~~(1 &&& byteMask 1) ≠ 3 := by decide

theorem witness_StartStopRelearn :
    let s := fun (code : Byte) (i : Inspection) (q : List Line) =>
      ready code (s := { State.reset with csu.inspection := i, lcu.lineQueue := q, lcu.divider := 4 })
    ∀ x ∈ [((1 : Byte), Inspection.off, ([] : List Line)), (1, .run, []), (3, .run, []), (3, .off, []), (2, .off, []), (2, .learn, []),
        (2, .run, [line 0])],
      (s x.1 x.2.1 x.2.2).readyFor 0 ∧ ((s x.1 x.2.1 x.2.2).slot 0).command.code = x.1
        ∧ (s x.1 x.2.1 x.2.2).csu.inspection = x.2.1 ∧ (s x.1 x.2.1 x.2.2).lcu.lineQueue = x.2.2 := by
  unfold State.readyFor; decide +kernel

theorem witness_LoadsAndSaves :
    let s := fun (code addr : Nat) => ready (BitVec.ofNat 8 code) (BitVec.ofNat 32 addr)
    (∀ x ∈ [(0x10, 0x1000), (0x10, 1), (0x11, 0x1000), (0x11, 1), (0x12, 0x1000), (0x12, 1)],
      (s x.1 x.2).readyFor 0 ∧ ((s x.1 x.2).slot 0).command.code.toNat = x.1
        ∧ ((s x.1 x.2).slot 0).command.arg1.toNat = x.2 ∧ (s x.1 x.2).fdu.analysis = none)
    ∧ (ready 0x12 0x1000 (s := analysing .run [])).readyFor 0
      ∧ (ready 0x12 0x1000 (s := analysing .run [])).fdu.analysis ≠ none := by
  unfold State.readyFor; decide +kernel

/-- A load with the one read of its table in hand in flight, other tables behind it. -/
def lastRead (kind : TableKind) (s : State := State.reset) (rest : List DirEntry := []) (refused : Option Nat := none) : State :=
  { s with
    csu.running := [{ slot := 0, phase := .tables 0 ({ kind := kind, addr := 0x1000 } :: rest) [] [] refused }]
    tru.flight := [.own { own .tableRead .read with beats := kind.beats }] }

/-- The bytes of a table: its kind and length, and the rest as given. -/
def tableBytes (kind : TableKind) (code : Byte) (rest : List Byte) : List Byte :=
  [code] ++ reserved 3 ++ toLe 4 kind.length ++ reserved 24 ++ rest ++ reserved (kind.length - 32 - rest.length)

theorem witness_OneTableIsLoaded :
    let r := { own .tableRead .read with beats := TableKind.shift.beats }
    let s := lastRead .shift
    let data := tableBytes .shift 8 []
    s.quiet = true ∧ s.tru.flight = .own r :: [] ∧ r.purpose = .tableRead ∧ r.kind = .read ∧ data.length = 32 * r.beats
      ∧ s.csu.running = [{ slot := 0, phase := .tables 0 [{ kind := .shift, addr := 0x1000 }] [] [] none }]
      ∧ TableKind.shift.length ≤ ([] : List Byte).length + data.length ∧ s.nothingStaged = true ∧ s.cdu.newMask = none
      ∧ (readTable s.tru.controlBase .shift ([] ++ data)).isSome = true
      ∧ readTable s.tru.controlBase .shift ([] ++ tableBytes .shift 7 []) = none
      ∧ (readTable s.tru.controlBase .link (tableBytes .link 7 [])).isSome = true
      ∧ (readTable s.tru.controlBase .grade (tableBytes .grade 5 [])).isSome = true
      ∧ (readTable s.tru.controlBase .detect (tableBytes .detect 2 [0, 1, 0, 0, 255, 0])).isSome = true
      ∧ (readTable s.tru.controlBase .product (tableBytes .product 6 [0, 1, 0, 0, 1])).isSome = true
      ∧ (readTable s.tru.controlBase .transit (tableBytes .transit 1 [])).isSome = true
      ∧ (readTable s.tru.controlBase .cls (tableBytes .cls 4 [])).isSome = true
      ∧ (lastRead .grade { State.reset with ppl.piece := some openPiece }).quiet = true
      ∧ (lastRead .detect { State.reset with csu.inspection := .run }).quiet = true
      ∧ (lastRead .link (dispatch (.pollXfer 0 true) [] .offline)).quiet = true := by decide +kernel

theorem witness_OneTableIsLoaded_column :
    (readTable 0 .column (tableBytes .column 3 [])).isSome = true := by decide +kernel

theorem witness_OneTableIsLoaded_directory :
    let next : DirEntry := { kind := .column, addr := 0x8000 }
    (∀ x ∈ [([next], none), ([], some 0), ([next], some (0 : Nat))],
      let s := lastRead .shift State.reset x.1 x.2
      s.quiet = true ∧ s.csu.running = [{ slot := 0, phase := .tables 0 ({ kind := .shift, addr := 0x1000 } :: x.1) [] [] x.2 }]
        ∧ s.nothingStaged = true ∧ s.cdu.newMask = none)
    ∧ 16 * 16 < next.kind.beats := by decide +kernel

theorem witness_OneTableIsLoaded_several :
    let grade : TableBody := .grade GradeTable.powerOn
    let s := fun piece : Option OpenPiece =>
      { lastRead .shift { State.reset with ppl.piece := piece } with
        csu.running := [{ slot := 0, phase := .tables 1 [{ kind := .shift, addr := 0x1000 }] [] [grade] none }] }
    (s none).quiet = true ∧ (s none).nothingStaged = true ∧ (s none).cdu.newMask = none ∧ (s none).ppl.piece = none
      ∧ (s (some openPiece)).quiet = true ∧ (s (some openPiece)).nothingStaged = true ∧ (s (some openPiece)).ppl.piece ≠ none := by
  decide +kernel

theorem witness_OneTableIsLoaded_rules :
    (∀ k ∈ [(TableKind.transit, 1), (.detect, 2), (.column, 3), (.cls, 4), (.grade, 5), (.product, 6), (.link, 7), (.shift, 8)],
      let b := tableBytes k.1 (BitVec.ofNat 8 k.2) []
      byteAt b 0 = k.2 ∧ field b 4 4 = k.1.length ∧ b.length = k.1.length)
    ∧ readTable 0 .transit (tableBytes .transit 1 [1]) = none
    ∧ readTable 0 .transit (tableBytes .transit 1 (reserved 8 ++ toLe 8 (2 ^ 30 + 4096))) = none
    ∧ readTable 0 .detect (tableBytes .detect 2 []) = none
    ∧ readTable 0 .cls (tableBytes .cls 4 [17]) = none
    ∧ readTable 0 .cls (tableBytes .cls 4 ([1] ++ reserved 31 ++ [15])) = none
    ∧ readTable 0 .product (tableBytes .product 6 []) = none := by decide +kernel

theorem witness_BridgeEnable :
    let s := fun e : Engine => ready 0x40 0xF (s := dispatch e [] .offline)
    ∀ e ∈ [Engine.gap, .stuck, .pollXfer 0 true, .cutXfer 0 1 1 1 true],
      (s e).readyFor 0 ∧ ((s e).slot 0).command.code = 0x40 ∧ (s e).cdu.stagedLink = none ∧ (s e).cdu.engine = e := by
  unfold State.readyFor; decide +kernel

theorem witness_RefreshAndBadCommand :
    (ready 0x50).readyFor 0 ∧ ((ready 0x50).slot 0).command.code = 0x50
      ∧ (ready 0x33).readyFor 0 ∧ ((ready 0x33).slot 0).command.code
          ∉ ([0x01, 0x02, 0x03, 0x10, 0x11, 0x12, 0x20, 0x30, 0x40, 0x41, 0x50, 0x7F] : List Byte) := by
  unfold State.readyFor; decide +kernel

theorem witness_ResetEngine :
    let s := ready 0x7F (s := dispatch .gap [issuedEntry 2] (.busy 5 2))
    s.readyFor 0 ∧ (s.slot 0).command.code = 0x7F ∧ s.cdu.stagedLink = none ∧ s.cdu.newMask = none ∧ s.cdu.queue ≠ []
      ∧ (s.bridge 1).state = .disabled ∧ (s.bridge 0).state ≠ .disabled := by
  unfold State.readyFor; decide +kernel

theorem witness_ResetEngine_bridges :
    let s := fun (st : BridgeState) (mask : BitVec 4) => ready 0x7F (s := { dispatch .gap [] st with cdu.mask := mask })
    ∀ x ∈ [(BridgeState.disabled, (0 : BitVec 4)), (.busy 5 2, 0), (.busy 5 2, 1), (.idle, 1)],
      (s x.1 x.2).readyFor 0 ∧ ((s x.1 x.2).slot 0).command.code = 0x7F ∧ (s x.1 x.2).cdu.stagedLink = none
        ∧ (s x.1 x.2).cdu.newMask = none ∧ ((s x.1 x.2).bridge 0).state = x.1 ∧ (s x.1 x.2).fdu.stagedDetect = none := by
  unfold State.readyFor; decide +kernel

/-! ### One command of each family, from reset -/

/-- The state after a command; the state before it where it has none. -/
def after (c : Instr) (s : State) : State :=
  match exec c s with
  | .next t => t
  | .fault _ => s
  | .refused _ => s

theorem test_encoder_edge : (after (.encoderEdge .lowToHigh) State.reset).lcu.counter = 1 := by decide +kernel
theorem test_falling_edge_not_counted : (after (.encoderEdge .highToLow) State.reset).lcu.counter = 0 := by decide +kernel
theorem test_start : (after .start (ready 0x01)).csu.inspection = .learn ∧ (after .start (ready 0x01)).csu.causes = 1 := by decide +kernel
theorem test_other_row_waits : after .stop (ready 0x01) = ready 0x01 := by decide +kernel
theorem test_bridge_enable_begins_a_round :
    (after .bridgeEnable (ready 0x40 2)).cdu.engine = .pollXfer 1 false := by decide +kernel
theorem test_refused_order :
    let s := dispatch (.cutXfer 0 2 5 1 true) [{ waitingEntry 2 50 with state := .waiting true }] .idle 50
    ((after (.cutTransferEnd 0x15 0xEB) s).bridge 0).state = .notReady := by decide +kernel
/-- R122: with the power-on miss_tol 400 at the last counter event, a miss_tol of 0 in force does not yet count at a transfer's end. -/
theorem test_new_miss_tol_waits_for_a_counter_event :
    let s := dispatch (.cutXfer 0 2 5 1 true) [{ waitingEntry 2 50 with state := .waiting true }] .idle 60
    let changed : State := { s with cdu.link.missTol := 0 }
    let counted : State := { s with cdu.missTol := 0 }
    (after (.cutTransferEnd 0x15 0xEB) changed).cdu.queue.length = 1 ∧ (after (.cutTransferEnd 0x15 0xEB) counted).cdu.queue.length = 0 := by
  decide
theorem test_flaw_record_is_dropped_on_a_full_queue :
    ((State.produce 0 record.body (withChannel fun c => { c with queue := List.replicate 64 record })).channel 0).dropped = 1 := by
  decide +kernel
theorem test_expiry_raised_at_once_comes_before_reset_engine :
    (after .resetEngine (ready 0x7F (s := raised))).ppl.nextPiece = 2 ∧ (after .resetEngine (ready 0x7F (s := expired))).ppl.nextPiece = 1 := by
  decide +kernel
theorem test_strap_base : (after (.powerOnReset 2) State.reset).tru.controlBase = 0x0800000000 := by decide +kernel

end Sys2Proof.Tests
end

section
/-! PROOFS. The arithmetic of one line (R24 to R26, R29, R30): deviation, rounding and contrast, the thresholds, background tracking. -/

namespace Sys2Proof.Machine

/-! ### Deviation and contrast (R24, R25) -/

/-- The range of a deviation (R24). -/
theorem Column.deviation_bounds (c : Column) : -65535 ≤ c.deviation ∧ c.deviation ≤ 65280 := by
  have hp := c.pixel.isLt
  have hbg := c.background.isLt
  unfold Column.deviation
  omega

theorem roundDiv_neg (n : Int) (d : Nat) : roundDiv (-n) d = -roundDiv n d := by
  rw [roundDiv, roundDiv, Int.sign_neg, Int.natAbs_neg, Int.neg_mul]

theorem roundDiv_zero (d : Nat) : roundDiv 0 d = 0 := by
  rw [roundDiv, Int.sign_zero, Int.zero_mul]

theorem roundDiv_of_pos {n : Int} (hn : 0 < n) (d : Nat) : roundDiv n d = (2 * n + d) / (2 * d) := by
  have habs : (n.natAbs : Int) = n := Int.natAbs_of_nonneg (Int.le_of_lt hn)
  rw [roundDiv, Int.sign_eq_one_of_pos hn, Int.one_mul, Int.natCast_ediv, Int.natCast_add, Int.natCast_mul, Int.natCast_mul,
    habs, Int.cast_ofNat_Int]

/-- Above 0 a half rounds up, so `roundDiv` is the floor of n/d + 1/2. -/
theorem roundDiv_eq_of_nearest_of_pos {n r : Int} {d : Nat} (hn : 0 < n) (hd : 0 < d)
    (near : 2 * (d * r - n).natAbs ≤ d)
    (tie : 2 * (d * r - n).natAbs = d → n.natAbs ≤ d * r.natAbs) : roundDiv n d = r := by
  have hr : 0 ≤ r := by
    refine Int.not_lt.mp fun hneg => ?_
    have : (d : Int) * r ≤ d * (-1) := Int.mul_le_mul_of_nonneg_left (by omega) (by omega)
    omega
  have habove : r * (2 * d) ≤ 2 * n + d := by
    rw [Int.mul_left_comm, Int.mul_comm r]
    omega
  have hbelow : 2 * n + d < (r + 1) * (2 * d) := by
    rw [Int.add_mul, Int.mul_left_comm, Int.mul_comm r]
    refine Int.not_le.mp fun hge => ?_
    have hle : (n.natAbs : Int) ≤ d * (r.natAbs : Int) := Int.ofNat_le.mpr (tie (by omega))
    rw [Int.natAbs_of_nonneg (Int.le_of_lt hn), Int.natAbs_of_nonneg hr] at hle
    omega
  have hpos : 0 < 2 * (d : Int) := by omega
  rw [roundDiv_of_pos hn]
  exact Int.le_antisymm (Int.le_of_lt_add_one (Int.ediv_lt_of_lt_mul hpos hbelow)) (Int.le_ediv_of_mul_le hpos habove)

/-- The integer nearest to n/d, on a tie the one farther from zero, is `roundDiv n d` (00_scope, "Rounding"). -/
theorem roundDiv_eq_of_nearest {n r : Int} {d : Nat} (hd : 0 < d)
    (near : 2 * (d * r - n).natAbs ≤ d)
    (tie : 2 * (d * r - n).natAbs = d → n.natAbs ≤ d * r.natAbs) : roundDiv n d = r := by
  rcases Int.lt_trichotomy n 0 with hn | rfl | hn
  · have mirrored : (d * -r - -n).natAbs = (d * r - n).natAbs := by
      rw [Int.mul_neg]
      omega
    have h : roundDiv (-n) d = -r :=
      roundDiv_eq_of_nearest_of_pos (by omega) hd (by rwa [mirrored])
        (by rwa [mirrored, Int.natAbs_neg, Int.natAbs_neg])
    rwa [roundDiv_neg, Int.neg_inj] at h
  · have hr : r = 0 := by
      rw [Int.sub_zero, Int.natAbs_mul, Int.natAbs_natCast] at near
      refine Int.natAbs_eq_zero.mp (Nat.eq_zero_of_not_pos fun hpos => ?_)
      have := Nat.le_mul_of_pos_right d hpos
      omega
    rw [hr, roundDiv_zero]
  · exact roundDiv_eq_of_nearest_of_pos hn hd near tie

theorem contrastOf_bounds (g : Nat) (d : Int) : -255 ≤ contrastOf g d ∧ contrastOf g d ≤ 255 := by
  unfold contrastOf
  omega

/-- Settles O15: the clamp is outermost, and under it stands the nearest integer. -/
theorem contrastFollowsTheArithmetic : Obligations.ContrastFollowsTheArithmetic := by
  refine ⟨fun c => ?_, fun g d r near tie => ?_⟩
  · exact ⟨rfl, c.deviation_bounds.1, c.deviation_bounds.2, rfl, contrastOf_bounds c.gain c.deviation⟩
  · have factor : ((64 + g : Nat) : Int) = 64 + (g : Int) := Int.natCast_add 64 g
    rw [contrastOf, factor, roundDiv_eq_of_nearest (d := 16384) (by decide) near tie]

/-! ### Candidates (R26) -/

theorem candidateOf_of_dark {t : Detect} {s : Int} (hs : s ≤ -(t.tlDark : Int)) (hp : t.polarityEnable ≠ .bright) :
    candidateOf t s = some (.dark, decide (s ≤ -(t.thDark : Int))) :=
  if_pos ⟨hs, hp⟩

theorem candidateOf_of_bright {t : Detect} {s : Int} (hdark : ¬(s ≤ -(t.tlDark : Int) ∧ t.polarityEnable ≠ .bright))
    (hs : (t.tlBright : Int) ≤ s) (hp : t.polarityEnable ≠ .dark) :
    candidateOf t s = some (.bright, decide ((t.thBright : Int) ≤ s)) :=
  (if_neg hdark).trans (if_pos ⟨hs, hp⟩)

theorem candidateOf_of_neither {t : Detect} {s : Int} (hdark : ¬(s ≤ -(t.tlDark : Int) ∧ t.polarityEnable ≠ .bright))
    (hbright : ¬((t.tlBright : Int) ≤ s ∧ t.polarityEnable ≠ .dark)) : candidateOf t s = none :=
  (if_neg hdark).trans (if_neg hbright)

/-- The three answers of `candidateOf`, each with the condition under which it is given. -/
theorem candidateOf_cases (t : Detect) (s : Int) :
    (s ≤ -(t.tlDark : Int) ∧ t.polarityEnable ≠ .bright ∧ candidateOf t s = some (.dark, decide (s ≤ -(t.thDark : Int))))
    ∨ ((t.tlBright : Int) ≤ s ∧ t.polarityEnable ≠ .dark
        ∧ candidateOf t s = some (.bright, decide ((t.thBright : Int) ≤ s)))
    ∨ candidateOf t s = none := by
  by_cases hdark : s ≤ -(t.tlDark : Int) ∧ t.polarityEnable ≠ .bright
  · exact .inl ⟨hdark.1, hdark.2, candidateOf_of_dark hdark.1 hdark.2⟩
  · by_cases hbright : (t.tlBright : Int) ≤ s ∧ t.polarityEnable ≠ .dark
    · exact .inr (.inl ⟨hbright.1, hbright.2, candidateOf_of_bright hdark hbright.1 hbright.2⟩)
    · exact .inr (.inr (candidateOf_of_neither hdark hbright))

theorem candidateOf_eq_dark_iff (t : Detect) (s : Int) (strong : Bool) :
    candidateOf t s = some (.dark, strong) ↔
      t.polarityEnable ≠ .bright ∧ s ≤ -(t.tlDark : Int) ∧ decide (s ≤ -(t.thDark : Int)) = strong := by
  constructor
  · intro h
    rcases candidateOf_cases t s with ⟨hs, hp, e⟩ | ⟨_, _, e⟩ | e <;> cases e.symm.trans h
    exact ⟨hp, hs, rfl⟩
  · rintro ⟨hp, hs, rfl⟩
    exact candidateOf_of_dark hs hp

/-- With tl_dark at least 1 no contrast lies beyond both lower thresholds, so the dark test comes first without effect. -/
theorem candidateOf_eq_bright_iff {t : Detect} (htl : 1 ≤ t.tlDark) (s : Int) (strong : Bool) :
    candidateOf t s = some (.bright, strong) ↔
      t.polarityEnable ≠ .dark ∧ (t.tlBright : Int) ≤ s ∧ decide ((t.thBright : Int) ≤ s) = strong := by
  constructor
  · intro h
    rcases candidateOf_cases t s with ⟨_, _, e⟩ | ⟨hs, hp, e⟩ | e <;> cases e.symm.trans h
    exact ⟨hp, hs, rfl⟩
  · rintro ⟨hp, hs, rfl⟩
    exact candidateOf_of_bright (fun hdark => by omega) hs hp

theorem candidateOf_eq_none_iff (t : Detect) (s : Int) :
    candidateOf t s = none ↔
      (s ≤ -(t.tlDark : Int) → t.polarityEnable = .bright) ∧ ((t.tlBright : Int) ≤ s → t.polarityEnable = .dark) := by
  constructor
  · intro h
    have hdark : s ≤ -(t.tlDark : Int) → t.polarityEnable = .bright := fun hs =>
      Decidable.byContradiction fun hp => nomatch h.symm.trans (candidateOf_of_dark hs hp)
    refine ⟨hdark, fun hs => Decidable.byContradiction fun hp => ?_⟩
    exact nomatch h.symm.trans (candidateOf_of_bright (fun hd => hd.2 (hdark hd.1)) hs hp)
  · rintro ⟨hdark, hbright⟩
    exact candidateOf_of_neither (fun h => h.2 (hdark h.1)) (fun h => h.2 (hbright h.1))

theorem Column.candidate_of_takesPart {t : Detect} {c : Column} (h : c.takesPart t = true) :
    c.candidate t = candidateOf t c.contrast :=
  if_pos h

theorem Column.candidate_of_not_takesPart {t : Detect} {c : Column} (h : c.takesPart t = false) : c.candidate t = none :=
  if_neg (Bool.eq_false_iff.mp h)

/-- Settles O16, a classification at a time; th ≥ tl makes the lower threshold follow from the upper one. -/
theorem candidatesByThreshold : Obligations.CandidatesByThreshold := by
  intro t s htlDark hthDark _ hthBright
  refine ⟨?_, ?_, ?_, ?_, candidateOf_eq_none_iff t s, fun c => ?_⟩
  · rw [candidateOf_eq_dark_iff, decide_eq_true_iff]
    exact and_congr_right fun _ => by omega
  · rw [candidateOf_eq_dark_iff, decide_eq_false_iff_not]
    exact and_congr_right fun _ => by omega
  · rw [candidateOf_eq_bright_iff htlDark, decide_eq_true_iff]
    exact and_congr_right fun _ => by omega
  · rw [candidateOf_eq_bright_iff htlDark, decide_eq_false_iff_not]
    exact and_congr_right fun _ => by omega
  · exact ⟨Column.candidate_of_takesPart, Column.candidate_of_not_takesPart⟩

/-! ### Background tracking (R29, R30) -/

/-- The step of tracking lies between 0 and the deviation, on either side of 0 (R29). -/
theorem ediv_between_zero_and_self (d : Int) {m : Nat} (hm : 0 < m) : min 0 d ≤ d / m ∧ d / m ≤ max 0 d := by
  have hmpos : 0 < (m : Int) := Int.natCast_pos.mpr hm
  rcases Int.le_total 0 d with hd | hd
  · have hlow := Int.ediv_nonneg hd (Int.le_of_lt hmpos)
    have hhigh := Int.ediv_le_self m hd
    omega
  · have hscaled : d * m ≤ d * 1 := Int.mul_le_mul_of_nonpos_left hd hmpos
    have hlow : d ≤ d / m := Int.le_ediv_of_mul_le hmpos (by omega)
    have hhigh := Int.ediv_nonpos_of_nonpos_of_neg hd hmpos
    omega

/-- The tracked value lies between the old background and 256·p. -/
theorem Column.tracked_between (c : Column) (shift : Nat) :
    (min c.background.toNat (256 * c.pixel.toNat) : Int)
        ≤ c.background.toNat + c.deviation / ((2 ^ shift : Nat) : Int)
      ∧ c.background.toNat + c.deviation / ((2 ^ shift : Nat) : Int)
        ≤ (max c.background.toNat (256 * c.pixel.toNat) : Int) := by
  have h := ediv_between_zero_and_self c.deviation (Nat.two_pow_pos shift)
  have hdev : c.deviation = 256 * (c.pixel.toNat : Int) - c.background.toNat := rfl
  omega

/-- The tracked value fits the 16 bits of a background, so storing it loses nothing. -/
theorem Column.toNat_track (shift : Nat) (c : Column) :
    ((c.track shift).toNat : Int) = c.background.toNat + c.deviation / ((2 ^ shift : Nat) : Int) := by
  have h := c.tracked_between shift
  have hp := c.pixel.isLt
  have hbg := c.background.isLt
  rw [Column.track, BitVec.toNat_ofInt]
  omega

theorem Column.track_between (shift : Nat) (c : Column) :
    min c.background.toNat (256 * c.pixel.toNat) ≤ (c.track shift).toNat
      ∧ (c.track shift).toNat ≤ max c.background.toNat (256 * c.pixel.toNat) := by
  have h := c.tracked_between shift
  rw [← Column.toNat_track] at h
  omega

theorem Column.toNat_track_zero (c : Column) : (c.track 0).toNat = 256 * c.pixel.toNat := by
  have h := c.toNat_track 0
  rw [Nat.pow_zero, Int.natCast_one, Int.ediv_one, Column.deviation] at h
  omega

theorem Run.covers_iff (r : Run) (k : Nat) : r.covers k = true ↔ r.first ≤ k ∧ k ≤ r.last := by
  rw [Run.covers, Bool.and_eq_true, decide_eq_true_iff, decide_eq_true_iff]

theorem Run.any_covers_iff (runs : List Run) (k : Nat) :
    runs.any (Run.covers · k) = true ↔ ∃ r ∈ runs, r.first ≤ k ∧ k ≤ r.last := by
  simp only [List.any_eq_true, Run.covers_iff]

section
variable {t : Detect} {runs : List Run} {c : Column}

theorem Column.after_of_not_takesPart (h : c.takesPart t = false) (mode : LineMode) :
    c.after t mode runs = c.background :=
  if_neg (Bool.eq_false_iff.mp h)

theorem Column.after_learn (h : c.takesPart t = true) : c.after t .learn runs = c.track t.learnShift :=
  if_pos h

theorem Column.after_run_of_uncovered (h : c.takesPart t = true)
    (hout : ∀ r ∈ runs, ¬(r.first ≤ c.index ∧ c.index ≤ r.last)) :
    c.after t .run runs = c.track t.trackShift := by
  have huncovered : ¬ runs.any (Run.covers · c.index) = true := by
    rw [Run.any_covers_iff]
    exact fun ⟨r, hr, hin⟩ => hout r hr hin
  exact (if_pos h).trans (if_neg huncovered)

theorem Column.after_run_of_covered (hin : ∃ r ∈ runs, r.first ≤ c.index ∧ c.index ≤ r.last) :
    c.after t .run runs = c.background := by
  cases hpart : c.takesPart t with
  | false => exact Column.after_of_not_takesPart hpart .run
  | true => exact (if_pos hpart).trans (if_pos ((Run.any_covers_iff runs c.index).mpr hin))

end

/-- Settles O18: each kind of line either tracks a column by its shift or keeps the background. -/
theorem lineTracksBackground : Obligations.LineTracksBackground := by
  refine ⟨fun t runs c => ⟨fun hpart hout => ?_, ?_⟩, fun t cols c => ⟨rfl, fun hpart => ?_, ?_⟩⟩
  · rw [Column.after_run_of_uncovered hpart hout]
    exact ⟨c.toNat_track _, c.track_between _⟩
  · rintro (hpart | hin)
    · exact Column.after_of_not_takesPart hpart .run
    · exact Column.after_run_of_covered hin
  · rw [Column.after_learn hpart]
    obtain ⟨hlow, hhigh⟩ := c.track_between t.learnShift
    exact ⟨c.toNat_track _, hlow, hhigh, fun h => h ▸ c.toNat_track_zero⟩
  · exact fun hpart => Column.after_of_not_takesPart hpart .learn

end Sys2Proof.Machine
end

section
/-! PROOFS. Facts about lists and words that the proofs below share. -/

namespace Sys2Proof.Machine

section
variable {α β : Type}

theorem filterMap_congr_of_mem {f g : α → Option β} {l : List α} (h : ∀ x ∈ l, f x = g x) : l.filterMap f = l.filterMap g := by
  induction l with
  | nil => rfl
  | cons x l ih =>
    rw [List.filterMap_cons, List.filterMap_cons, h x List.mem_cons_self, ih fun y hy => h y (List.mem_cons_of_mem _ hy)]

/-- A function that takes no value twice on a list is injective on it. -/
theorem eq_of_nodup_map {f : α → β} {l : List α} (hn : (l.map f).Nodup) {x y : α} (hx : x ∈ l) (hy : y ∈ l) (h : f x = f y) : x = y := by
  induction l with
  | nil => exact absurd hx List.not_mem_nil
  | cons z l ih =>
    rw [List.map_cons, List.nodup_cons] at hn
    obtain ⟨fresh, nodup⟩ := hn
    rcases List.mem_cons.mp hx with first | hx
    · rcases List.mem_cons.mp hy with second | hy
      · rw [first, second]
      · exact absurd ((congrArg f first).symm.trans h ▸ List.mem_map_of_mem hy) fresh
    · rcases List.mem_cons.mp hy with second | hy
      · exact absurd (h.trans (congrArg f second) ▸ List.mem_map_of_mem hx) fresh
      · exact ih nodup hx hy

theorem nodup_of_nodup_map {f : α → β} {l : List α} (h : (l.map f).Nodup) : l.Nodup :=
  (List.pairwise_map.mp h).imp fun apart same => apart (congrArg f same)

theorem foldl_eq_of_perm {op : α → α → α} [Std.Associative op] [Std.Commutative op] {l m : List α} (p : l.Perm m) (a : α) :
    l.foldl op a = m.foldl op a :=
  p.foldl_eq' (fun x _ y _ z => by
    rw [Std.Associative.assoc (op := op), Std.Associative.assoc (op := op), Std.Commutative.comm (op := op) x y]) a

theorem length_filter_add_filter_not (p : α → Bool) (l : List α) :
    (l.filter p).length + (l.filter fun x => !p x).length = l.length := by
  rw [← List.countP_eq_length_filter, ← List.countP_eq_length_filter, List.length_eq_countP_add_countP p]
  refine congrArg (l.countP p + ·) (List.countP_congr fun x _ => ?_)
  cases p x <;> decide

theorem eq_dropLast_append {l : List α} {x : α} (h : l.getLast? = some x) : l = l.dropLast ++ [x] := by
  obtain ⟨m, rfl⟩ := List.getLast?_eq_some_iff.mp h
  rw [List.dropLast_concat]

theorem dropWhile_of_head {p : α → Bool} : ∀ {l : List α}, (∀ hl : 0 < l.length, ¬p l[0] = true) → l.dropWhile p = l
  | [], _ => rfl
  | _ :: _, h => List.dropWhile_cons_of_neg (h (Nat.succ_pos _))

theorem takeWhile_of_head {p : α → Bool} : ∀ {l : List α}, (∀ hl : 0 < l.length, ¬p l[0] = true) → l.takeWhile p = []
  | [], _ => rfl
  | _ :: _, h => List.takeWhile_cons_of_neg (h (Nat.succ_pos _))

theorem ite_of_iff {a b : Prop} [Decidable a] [Decidable b] (h : a ↔ b) (x y : α) : (if a then x else y) = if b then x else y := by
  by_cases hb : b
  · rw [if_pos hb, if_pos (h.mpr hb)]
  · rw [if_neg hb, if_neg (mt h.mp hb)]

/-- Of the indices of which something holds one is the least. -/
theorem exists_least_fin {n : Nat} {p : Fin n → Prop} (m : Nat) : ∀ b : Fin n, b.val = m → p b → ∃ b, p b ∧ ∀ c, c < b → ¬p c := by
  induction m using Nat.strongRecOn with
  | _ m ih =>
    intro b hm hb
    by_cases lower : ∃ c, c < b ∧ p c
    · obtain ⟨c, lt, hc⟩ := lower
      exact ih c.val (hm ▸ lt) c rfl hc
    · exact ⟨b, hb, fun c lt hc => lower ⟨c, lt, hc⟩⟩

end

end Sys2Proof.Machine
end

section
/-! PROOFS. One step, and the fall and the rise of PORST_N (R138, R166; log entries 1, 6 and 17). -/

namespace Sys2Proof.Machine

/-- Settles O1. -/
theorem stepRunsFrontCommand : Obligations.StepRunsFrontCommand := by
  constructor
  · intro c s rest h
    rw [step, h]
  · intro s h
    rw [step, h]

/-! ### PORST_N -/

/-- While PORST_N is low no command but the two of PORST_N does anything (log entry 17). -/
theorem exec_of_porstLow {c : Instr} {s : State} (h : s.porstLow = true) (hr : ∀ x, c ≠ .powerOnReset x)
    (hf : c ≠ .porstNLow) : exec c s = .next s := by
  have event : ∀ f : State → State, command f s = .next s := fun f => by simp [command, State.commandState, h]
  have raised : ∀ (o : State → Bool) (f : State → State), taken o f s = .next s := fun o f => by
    simp [taken, State.takenState, h]
  cases c with
  | powerOnReset x => exact absurd rfl (hr x)
  | porstNLow => exact absurd rfl hf
  | encoderEdge e => exact if_pos h
  | entryDue => exact if_pos h
  | millisecondTick => exact if_pos h
  | lineTrigger => exact raised _ _
  | entryMissed => exact raised _ _
  | cutTimeout => exact raised _ _
  | fullyMaskedForward => exact raised _ _
  | ownRequestPlaced => exact raised _ _
  | _ => exact event _

/-- Settles O11. -/
theorem porstLowSilencesThePart : Obligations.PorstLowSilencesThePart :=
  ⟨fun _ => ⟨_, rfl, rfl, rfl, rfl, rfl, rfl, rfl, rfl, rfl⟩, fun _ _ => exec_of_porstLow⟩

/-! ### Power-on values -/

section
variable (x : BitVec 2)

@[simp] theorem State.powerOn_channel (ch : Fin 3) : (State.powerOn x).channel ch = Channel.powerOn :=
  Vector.getElem_replicate _

@[simp] theorem State.powerOn_slot (n : Fin 8) : (State.powerOn x).slot n = Slot.powerOn :=
  Vector.getElem_replicate _

@[simp] theorem State.powerOn_bridge (b : Fin 4) : (State.powerOn x).bridge b = Bridge.powerOn :=
  Vector.getElem_replicate _

@[simp] theorem State.powerOn_stopWord (ch : Fin 3) : (State.powerOn x).stopWord ch = 0 :=
  Vector.getElem_replicate _

end

/-- Only product 0 is enabled at power-on (5.7). -/
theorem ProductTable.powerOn_products (i : Fin 8) :
    ProductTable.powerOn.products[i] = { length := 30000, floor := .c, enabled := decide (i = 0) } := by
  revert i
  decide

theorem ClassTable.powerOn_classes (k : Fin 16) :
    ClassTable.powerOn.classes[k] = { b1 := 0, b2 := 0, b3 := 0, points := Vector.replicate 4 0 } :=
  Vector.getElem_replicate _

/-- Settles O2: every collection is empty and every table is at its power-on value. -/
theorem invariantsHoldAtReset : Obligations.InvariantsHoldAtReset := by
  intro x
  refine ⟨?_, ?_, ?_, ?_⟩
  · constructor <;> simp [State.powerOn, Tru.outstanding, Channel.powerOn, State.channel]
  · constructor <;> simp [State.powerOn, Cells.wf, Cells.wfFrom]
  · constructor <;> simp [State.powerOn]
  · constructor <;> simp [Channel.powerOn, Channel.balance, Tru.requestsFor, Tru.ownRequests, State.powerOn, State.channel]

/-- Settles O10: but for the straps and what is indexed by a number, every value is the one that `State.powerOn` writes. -/
theorem powerOnReset : Obligations.PowerOnReset := by
  intro x s
  have slots : ∀ n, (State.powerOn x).slot n = Slot.powerOn := State.powerOn_slot x
  have bridges : ∀ b, (State.powerOn x).bridge b = Bridge.powerOn := State.powerOn_bridge x
  have channels : ∀ ch, (State.powerOn x).channel ch = Channel.powerOn := State.powerOn_channel x
  have stopWords : ∀ ch, (State.powerOn x).stopWord ch = 0 := State.powerOn_stopWord x
  refine ⟨{ State.powerOn x with pending := s.pending, freeCount := s.freeCount }, rfl, rfl, rfl, rfl,
    -- the straps
    fun h => h ▸ rfl, fun h => h ▸ rfl, fun h => h ▸ rfl, fun h => h ▸ rfl,
    -- commands and slots
    rfl, rfl, rfl, rfl, rfl, rfl, fun n => ?_,
    -- capture and detection
    rfl, fun _ => rfl, fun _ => rfl, rfl, rfl, ClassTable.powerOn_classes,
    rfl, rfl, rfl, rfl, rfl, rfl, rfl, rfl, rfl, rfl, rfl, rfl,
    -- the planner
    rfl, rfl, rfl, rfl, rfl, rfl, rfl, rfl, rfl, rfl, rfl, rfl, ProductTable.powerOn_products,
    -- dispatch
    rfl, rfl, rfl, rfl, rfl, rfl, rfl, rfl, rfl, rfl, rfl, fun b => ?_,
    -- transit
    rfl, rfl, rfl, rfl, rfl, rfl, rfl, rfl, stopWords, rfl, fun k => ?_, rfl, rfl, rfl,
    -- output channels
    channels, fun ch => ?_,
    -- the shift
    rfl, rfl, rfl, rfl, rfl, rfl, rfl, rfl, rfl, rfl⟩
  · exact slots n ▸ ⟨rfl, rfl, rfl⟩
  · exact bridges b ▸ ⟨rfl, rfl, rfl, rfl, rfl⟩
  · exact congrArg Window.size (Vector.getElem_replicate k.isLt)
  · have stop : (State.powerOn x).stopIndex ch = 0 := by rw [State.stopIndex, stopWords]; rfl
    have index : (State.powerOn x).atStop ch = true := by rw [State.atStop, stop, channels]; rfl
    exact ⟨stop, index⟩

end Sys2Proof.Machine
end

section
/-! PROOFS. What a step can do, said once. Four relations between a state and a later one, each contained in the one before:
`State.Lawful` (the invariants of Safety.lean, the straps and the control window), `State.Orderly` (also the ribbon counter, and requests
answered in order), `State.Inner` (also the command FIFO) and `State.Steady` (also the DETECT table). Every operation of the model
stands in one of them, and the invariants follow. -/

namespace Sys2Proof.Machine

/-! ### The channels' law, channel by channel -/

/-- The kind a request of a channel's purpose is to have: descriptors are read, records are written (R142, R143). -/
def OwnPurpose.kind : OwnPurpose → ReqKind
  | .record _ => .write
  | _ => .read

/-- A request of the kind of its purpose weighs 1, and one of the other kind 2: so requests that weigh 1 together are one request, and it
is of that kind. -/
def OwnRequest.weight (r : OwnRequest) : Nat := if r.kind = r.purpose.kind then 1 else 2

/-- What the requests of a purpose in a list weigh. -/
def weightIn : List OwnRequest → OwnPurpose → Nat
  | [], _ => 0
  | r :: l, p => (if r.purpose = p then r.weight else 0) + weightIn l p

/-- What the own requests of a purpose weigh, wherever they stand. -/
def Tru.weightFor (t : Tru) (p : OwnPurpose) : Nat := weightIn t.ownRequests p

/-- What `State.ChannelsBalance` says of one channel and of the weights of its descriptor reads and record writes. -/
structure Channel.Tells (c : Channel) (reads writes : Nat) : Prop where
  balance : c.balance = 0
  head : c.activity = .writing → c.queue ≠ []
  active : c.activity ≠ .none → c.state = .active
  fetches : reads = if c.activity = .fetching then 1 else 0
  writes : writes = if c.activity = .writing then 1 else 0

/-- `State.ChannelsBalance` of a part whose PORST_N is high. -/
def State.ChannelsTell (s : State) : Prop :=
  ∀ ch, (s.channel ch).Tells (s.tru.weightFor (.descriptor ch)) (s.tru.weightFor (.record ch))

/-- The weight of requests is their number and the number of those that are not of the kind of their purpose. -/
theorem weightIn_eq (l : List OwnRequest) (p : OwnPurpose) : weightIn l p =
    (l.filter fun r => decide (r.purpose = p)).length
      + (l.filter fun r => decide (r.purpose = p)).countP fun r => decide (r.kind ≠ p.kind) := by
  induction l with
  | nil => rfl
  | cons r l ih =>
    rw [weightIn, ih, List.filter_cons]
    by_cases hp : r.purpose = p
    · rw [if_pos hp, if_pos (decide_eq_true hp), List.length_cons, List.countP_cons, OwnRequest.weight, hp]
      by_cases hk : r.kind = p.kind
      · rw [if_pos hk, if_neg (by rw [decide_eq_true_iff]; exact fun c => c hk)]
        omega
      · rw [if_neg hk, if_pos (decide_eq_true hk)]
        omega
    · rw [if_neg hp, if_neg (by rw [decide_eq_true_iff]; exact hp), Nat.zero_add]

/-- Requests weigh 1 or nothing exactly if they are one request of the kind of their purpose, or none. -/
theorem Tru.weightFor_eq_iff (t : Tru) (p : OwnPurpose) (b : Prop) [Decidable b] :
    t.weightFor p = (if b then 1 else 0)
      ↔ (t.requestsFor p).length = (if b then 1 else 0) ∧ ∀ r ∈ t.requestsFor p, r.kind = p.kind := by
  have kinds : (∀ r ∈ t.requestsFor p, r.kind = p.kind) ↔ (t.requestsFor p).countP (fun r => decide (r.kind ≠ p.kind)) = 0 := by
    rw [List.countP_eq_zero]
    simp only [decide_eq_true_eq, Decidable.not_not]
  have few := List.countP_le_length (p := fun r : OwnRequest => decide (r.kind ≠ p.kind)) (l := t.requestsFor p)
  have sum : t.weightFor p = (t.requestsFor p).length + (t.requestsFor p).countP fun r => decide (r.kind ≠ p.kind) := weightIn_eq _ _
  rw [kinds, sum]
  split <;> omega

theorem State.channelsBalance_iff {s : State} (low : s.porstLow = false) : s.ChannelsBalance ↔ s.ChannelsTell := by
  constructor
  · rintro ⟨balance, head, active, fetches, writes, fetchKind, writeKind⟩ ch
    exact ⟨balance ch, head ch, active ch, (Tru.weightFor_eq_iff _ _ _).mpr ⟨fetches low ch, fetchKind ch⟩,
      (Tru.weightFor_eq_iff _ _ _).mpr ⟨writes low ch, writeKind ch⟩⟩
  · intro h
    have reads := fun ch => (Tru.weightFor_eq_iff _ _ _).mp (h ch).fetches
    have writes := fun ch => (Tru.weightFor_eq_iff _ _ _).mp (h ch).writes
    exact ⟨fun ch => (h ch).balance, fun ch => (h ch).head, fun ch => (h ch).active, fun _ ch => (reads ch).1,
      fun _ ch => (writes ch).1, fun ch => (reads ch).2, fun ch => (writes ch).2⟩

/-! ### Answers in order -/

/-- From `t` to `u` some requests have left the head of the transit queue, and they have been answered in that order (R125). -/
def Tru.AnsweredInOrder (t u : Tru) : Prop :=
  ∃ k, u.transit.map TransitEntry.req = (t.transit.map TransitEntry.req).drop k
    ∧ u.answers.map Answer.tag = t.answers.map Answer.tag ++ ((t.transit.map TransitEntry.req).take k).map Request.tag

theorem Tru.AnsweredInOrder.of_eq {t u : Tru} (ht : u.transit.map TransitEntry.req = t.transit.map TransitEntry.req)
    (ha : u.answers = t.answers) : t.AnsweredInOrder u :=
  ⟨0, ht, by simp [ha]⟩

theorem Tru.AnsweredInOrder.trans {t u v : Tru} (h : t.AnsweredInOrder u) (h' : u.AnsweredInOrder v) :
    t.AnsweredInOrder v := by
  obtain ⟨k, hk, ak⟩ := h
  obtain ⟨m, hm, am⟩ := h'
  refine ⟨k + m, ?_, ?_⟩
  · rw [hm, hk, List.drop_drop]
  · rw [am, ak, hk, List.take_add, List.map_append, List.append_assoc]

/-! ### The relations -/

/-- From `s` to `t` the four invariants are kept, PORST_N, the straps and the control window are as before. -/
structure State.Lawful (s t : State) : Prop where
  porstLow : t.porstLow = s.porstLow
  ctlsel : t.ctlsel = s.ctlsel
  controlBase : t.tru.controlBase = s.tru.controlBase
  capacities : s.Capacities → t.Capacities
  tables : s.TablesCanonical → t.TablesCanonical
  slots : s.SlotsFollow → t.SlotsFollow
  channels : s.ChannelsTell → t.ChannelsTell

/-- Lawful, with the ribbon counter as before and upstream requests answered in order. -/
structure State.Orderly (s t : State) : Prop extends State.Lawful s t where
  counter : t.lcu.counter = s.lcu.counter
  answered : s.tru.AnsweredInOrder t.tru

/-- Orderly, with the command FIFO as before. -/
structure State.Inner (s t : State) : Prop extends State.Orderly s t where
  fifo : t.csu.fifo = s.csu.fifo

/-- Inner, with the DETECT table in force as before. -/
structure State.Steady (s t : State) : Prop extends State.Inner s t where
  detect : t.fdu.detect = s.fdu.detect

section
variable {s t u : State}

theorem State.Lawful.trans (h : s.Lawful t) (h' : t.Lawful u) : s.Lawful u where
  porstLow := h'.porstLow.trans h.porstLow
  ctlsel := h'.ctlsel.trans h.ctlsel
  controlBase := h'.controlBase.trans h.controlBase
  capacities hs := h'.capacities (h.capacities hs)
  tables hs := h'.tables (h.tables hs)
  slots hs := h'.slots (h.slots hs)
  channels hs := h'.channels (h.channels hs)

theorem State.Orderly.trans (h : s.Orderly t) (h' : t.Orderly u) : s.Orderly u where
  toLawful := h.toLawful.trans h'.toLawful
  counter := h'.counter.trans h.counter
  answered := h.answered.trans h'.answered

theorem State.Inner.trans (h : s.Inner t) (h' : t.Inner u) : s.Inner u where
  toOrderly := h.toOrderly.trans h'.toOrderly
  fifo := h'.fifo.trans h.fifo

theorem State.Steady.trans (h : s.Steady t) (h' : t.Steady u) : s.Steady u where
  toInner := h.toInner.trans h'.toInner
  detect := h'.detect.trans h.detect

theorem State.Steady.refl (s : State) : s.Steady s where
  porstLow := rfl
  ctlsel := rfl
  controlBase := rfl
  capacities := id
  tables := id
  slots := id
  channels := id
  counter := rfl
  answered := .of_eq rfl rfl
  fifo := rfl
  detect := rfl

theorem State.Inner.refl (s : State) : s.Inner s := (State.Steady.refl s).toInner

theorem State.Orderly.refl (s : State) : s.Orderly s := (State.Inner.refl s).toOrderly

theorem State.Lawful.refl (s : State) : s.Lawful s := (State.Orderly.refl s).toLawful

end

/-- A relation that every step over the members of a list keeps, the whole fold keeps. -/
theorem foldl_related {α : Type} {R : State → State → Prop} (refl : ∀ s, R s s)
    (trans : ∀ {s t u}, R s t → R t u → R s u) {f : State → α → State} :
    ∀ (l : List α) (s : State), (∀ s, ∀ a ∈ l, R s (f s a)) → R s (l.foldl f s)
  | [], s, _ => refl s
  | a :: l, s, h =>
    trans (h s a List.mem_cons_self)
      (foldl_related refl trans l _ fun s b hb => h s b (List.mem_cons_of_mem a hb))

theorem State.Steady.foldl {α : Type} {f : State → α → State} (h : ∀ s a, State.Steady s (f s a)) (l : List α) (s : State) :
    s.Steady (l.foldl f s) :=
  foldl_related State.Steady.refl State.Steady.trans l s fun s a _ => h s a

theorem State.Inner.foldl {α : Type} {f : State → α → State} (h : ∀ s a, State.Inner s (f s a)) (l : List α) (s : State) :
    s.Inner (l.foldl f s) :=
  foldl_related State.Inner.refl State.Inner.trans l s fun s a _ => h s a

theorem State.Orderly.foldl {α : Type} {f : State → α → State} (h : ∀ s a, State.Orderly s (f s a)) (l : List α) (s : State) :
    s.Orderly (l.foldl f s) :=
  foldl_related State.Orderly.refl State.Orderly.trans l s fun s a _ => h s a

/-! ### One block changes -/

/-- The collections of the line capture unit are within their capacities. -/
structure Lcu.Within (l : Lcu) : Prop where
  stamps : l.fifo.length ≤ 16
  lines : l.lineQueue.length ≤ 2
  gaps : l.gaps.length ≤ 32

/-- The collections of the flaw detection unit are within their capacities. -/
structure Fdu.Within (f : Fdu) : Prop where
  blobs : f.blobs.length ≤ 64
  store : f.store.length ≤ 512

/-- The tables of the flaw detection unit, in force and staged, are canonical. -/
structure Fdu.Canonical (f : Fdu) : Prop where
  columns : Cells.wf maskedGain f.columns = true
  reference : Cells.wf powerOnBackground f.reference = true
  stagedColumns : ∀ t, f.stagedColumns = some t → Cells.wf maskedGain t = true
  stagedReference : ∀ t, f.stagedReference = some t → Cells.wf powerOnBackground t = true

/-- The COLUMN tables a phase has read are canonical. -/
def Phase.Canonical (p : Phase) : Prop :=
  ∀ i es bs good refused, p = .tables i es bs good refused → ∀ t, TableBody.column t ∈ good → Cells.wf maskedGain t = true

section
variable {s : State}

theorem State.Capacities.lcuWithin (h : s.Capacities) : s.lcu.Within := ⟨h.stamps, h.lines, h.gaps⟩

theorem State.Capacities.fduWithin (h : s.Capacities) : s.fdu.Within := ⟨h.blobs, h.store⟩

theorem State.TablesCanonical.fduCanonical (h : s.TablesCanonical) : s.fdu.Canonical :=
  ⟨h.columns, h.reference, h.stagedColumns, h.stagedReference⟩

theorem State.TablesCanonical.phase (h : s.TablesCanonical) {r : Running} (hr : r ∈ s.csu.running) : r.phase.Canonical :=
  h.read r hr

theorem State.Steady.lcu (l : Lcu) (hc : l.counter = s.lcu.counter) (hl : s.lcu.Within → l.Within) :
    s.Steady { s with lcu := l } where
  porstLow := rfl
  ctlsel := rfl
  controlBase := rfl
  capacities h := { h with
    stamps := (hl h.lcuWithin).stamps, lines := (hl h.lcuWithin).lines, gaps := (hl h.lcuWithin).gaps }
  tables h := { h with }
  slots h := { h with }
  channels h := h
  counter := hc
  answered := .of_eq rfl rfl
  fifo := rfl
  detect := rfl

theorem State.Inner.fdu (f : Fdu) (hw : s.fdu.Within → f.Within) (hc : s.fdu.Canonical → f.Canonical) :
    s.Inner { s with fdu := f } where
  porstLow := rfl
  ctlsel := rfl
  controlBase := rfl
  capacities h := { h with blobs := (hw h.fduWithin).blobs, store := (hw h.fduWithin).store }
  tables h := { hc h.fduCanonical with read := h.read }
  slots h := { h with }
  channels h := h
  counter := rfl
  answered := .of_eq rfl rfl
  fifo := rfl

theorem State.Steady.fdu (f : Fdu) (hd : f.detect = s.fdu.detect) (hw : s.fdu.Within → f.Within)
    (hc : s.fdu.Canonical → f.Canonical) : s.Steady { s with fdu := f } where
  toInner := .fdu f hw hc
  detect := hd

theorem State.Inner.lcu (l : Lcu) (hc : l.counter = s.lcu.counter) (hl : s.lcu.Within → l.Within) :
    s.Inner { s with lcu := l } :=
  (State.Steady.lcu l hc hl).toInner

theorem State.Inner.lcuFdu (l : Lcu) (f : Fdu) (hc : l.counter = s.lcu.counter) (hl : s.lcu.Within → l.Within)
    (hw : s.fdu.Within → f.Within) (hf : s.fdu.Canonical → f.Canonical) : s.Inner { s with lcu := l, fdu := f } :=
  (State.Inner.lcu l hc hl).trans (.fdu f hw hf)

theorem State.Steady.lcuFdu (l : Lcu) (f : Fdu) (hc : l.counter = s.lcu.counter) (hd : f.detect = s.fdu.detect)
    (hl : s.lcu.Within → l.Within) (hw : s.fdu.Within → f.Within) (hf : s.fdu.Canonical → f.Canonical) :
    s.Steady { s with lcu := l, fdu := f } :=
  (State.Steady.lcu l hc hl).trans (.fdu f hd hw hf)

theorem State.Steady.ppl (p : Ppl) : s.Steady { s with ppl := p } where
  porstLow := rfl
  ctlsel := rfl
  controlBase := rfl
  capacities h := { h with }
  tables h := { h with }
  slots h := { h with }
  channels h := h
  counter := rfl
  answered := .of_eq rfl rfl
  fifo := rfl
  detect := rfl

theorem State.Steady.cdu (c : Cdu) (h : c.queue.length ≤ s.cdu.queue.length) : s.Steady { s with cdu := c } where
  porstLow := rfl
  ctlsel := rfl
  controlBase := rfl
  capacities hs := { hs with cuts := Nat.le_trans h hs.cuts }
  tables h := { h with }
  slots h := { h with }
  channels h := h
  counter := rfl
  answered := .of_eq rfl rfl
  fifo := rfl
  detect := rfl

theorem State.Steady.sac (a : Sac) : s.Steady { s with sac := a } where
  porstLow := rfl
  ctlsel := rfl
  controlBase := rfl
  capacities h := { h with }
  tables h := { h with }
  slots h := { h with }
  channels h := h
  counter := rfl
  answered := .of_eq rfl rfl
  fifo := rfl
  detect := rfl

/-- The command and status unit changes, its slots, FIFO and running commands apart. -/
theorem State.Steady.csu (c : Csu) (hslots : c.slots = s.csu.slots) (hfifo : c.fifo = s.csu.fifo)
    (hrun : c.running = s.csu.running) : s.Steady { s with csu := c } where
  porstLow := rfl
  ctlsel := rfl
  controlBase := rfl
  capacities h := { h with }
  tables h := { h with read := hrun ▸ h.read }
  slots h := by
    refine ⟨hfifo ▸ h.once, ?_, ?_⟩
    · simpa only [State.slot, hslots, hfifo] using h.queued
    · simpa only [State.slot, hslots, hrun] using h.running
  channels h := h
  counter := rfl
  answered := .of_eq rfl rfl
  fifo := hfifo
  detect := rfl

/-- The transit unit changes, its queues and its window apart. -/
theorem State.Steady.tru (u : Tru) (htransit : u.transit.map TransitEntry.req = s.tru.transit.map TransitEntry.req)
    (hown : u.own = s.tru.own) (hwaiting : u.waiting = s.tru.waiting) (hplacing : u.placing = s.tru.placing)
    (hflight : u.flight = s.tru.flight) (hbase : u.controlBase = s.tru.controlBase) (hanswers : u.answers = s.tru.answers) :
    s.Steady { s with tru := u } where
  porstLow := rfl
  ctlsel := rfl
  controlBase := hbase
  capacities h := { h with
    transit := by
      have same := congrArg List.length htransit
      rw [List.length_map, List.length_map] at same
      exact same ▸ h.transit
    own := hown ▸ h.own
    outstanding := by simpa only [Tru.outstanding, hflight] using h.outstanding }
  tables h := { h with }
  slots h := { h with }
  channels h ch := by
    have kinds : ∀ p, u.weightFor p = s.tru.weightFor p := fun p => by
      simp only [Tru.weightFor, Tru.ownRequests, hown, hwaiting, hplacing, hflight]
    simpa only [kinds, State.channel] using h ch
  counter := rfl
  answered := .of_eq htransit hanswers
  fifo := rfl
  detect := rfl

end

end Sys2Proof.Machine
end

section
/-! PROOFS. The operations every block shares are steady: requests, causes, counters, ranges, records, completions. -/

namespace Sys2Proof.Machine

variable {s : State}

/-! ### Weights of own requests -/

/-- The own requests among those granted and not yet answered. -/
def Tru.ownFlight (t : Tru) : List OwnRequest :=
  t.flight.filterMap fun x =>
    match x with
    | .own r => some r
    | .transit _ => none

@[simp] theorem weightIn_nil (p : OwnPurpose) : weightIn [] p = 0 := rfl

theorem weightIn_cons (r : OwnRequest) (l : List OwnRequest) (p : OwnPurpose) :
    weightIn (r :: l) p = (if r.purpose = p then r.weight else 0) + weightIn l p := rfl

theorem weightIn_append (l m : List OwnRequest) (p : OwnPurpose) : weightIn (l ++ m) p = weightIn l p + weightIn m p := by
  rw [weightIn_eq, weightIn_eq, weightIn_eq, List.filter_append, List.length_append, List.countP_append]
  omega

theorem weightIn_singleton_of_ne {r : OwnRequest} {p : OwnPurpose} (h : r.purpose ≠ p) : weightIn [r] p = 0 := by
  rw [weightIn_cons, if_neg h, weightIn_nil]

theorem weightIn_of_perm {l m : List OwnRequest} (h : l.Perm m) (p : OwnPurpose) : weightIn l p = weightIn m p := by
  rw [weightIn_eq, weightIn_eq, (h.filter _).length_eq, (h.filter _).countP_eq]

theorem Tru.weightFor_eq (t : Tru) (p : OwnPurpose) :
    t.weightFor p = weightIn t.own p + weightIn t.waiting p + weightIn t.placing p + weightIn t.ownFlight p := by
  rw [← weightIn_append, ← weightIn_append, ← weightIn_append]
  rfl

/-- The order of R132 only reorders. -/
theorem rankSorted_perm (l : List OwnRequest) : (rankSorted l).Perm l := by
  have rank_lt (r : OwnRequest) : r.purpose.rank < 6 := by
    cases r.purpose <;> simp only [OwnPurpose.rank] <;> omega
  rw [List.perm_iff_count]
  intro r
  have one : ∀ k, (l.filter fun x => x.purpose.rank == k).count r = if r.purpose.rank = k then l.count r else 0 := by
    intro k
    split
    · next h => exact List.count_filter (by simp [h])
    · next h => exact List.count_eq_zero_of_not_mem fun hm => h (by simpa using (List.mem_filter.mp hm).2)
  have split := rank_lt r
  simp only [rankSorted, List.range, List.range.loop, List.flatMap_cons, List.flatMap_nil, List.count_append, one,
    List.count_nil]
  generalize r.purpose.rank = k at split
  obtain rfl | rfl | rfl | rfl | rfl | rfl : k = 0 ∨ k = 1 ∨ k = 2 ∨ k = 3 ∨ k = 4 ∨ k = 5 := by omega
  all_goals simp

/-! ### Requests and causes -/

/-- The purpose is no channel's. -/
def OwnPurpose.notChannel : OwnPurpose → Bool
  | .descriptor _ => false
  | .record _ => false
  | _ => true

theorem OwnPurpose.ne_descriptor {p : OwnPurpose} (h : p.notChannel = true) (ch : Fin 3) : p ≠ .descriptor ch := by
  rintro rfl
  exact nomatch h

theorem OwnPurpose.ne_record {p : OwnPurpose} (h : p.notChannel = true) (ch : Fin 3) : p ≠ .record ch := by
  rintro rfl
  exact nomatch h

theorem State.place_weightFor (r : OwnRequest) (s : State) (p : OwnPurpose) :
    (s.place r).tru.weightFor p = s.tru.weightFor p + weightIn [r] p := by
  rw [Tru.weightFor_eq, Tru.weightFor_eq, State.place, weightIn_append, Tru.ownFlight, Tru.ownFlight]
  dsimp only
  omega

theorem State.place_steady {r : OwnRequest} (h : r.purpose.notChannel = true) (s : State) : s.Steady (s.place r) where
  porstLow := rfl
  ctlsel := rfl
  controlBase := rfl
  capacities h := { h with }
  tables h := { h with }
  slots h := { h with }
  channels hs ch := by
    rw [State.place_weightFor, State.place_weightFor, weightIn_singleton_of_ne (OwnPurpose.ne_descriptor h ch),
      weightIn_singleton_of_ne (OwnPurpose.ne_record h ch), Nat.add_zero, Nat.add_zero]
    exact hs ch
  counter := rfl
  answered := .of_eq rfl rfl
  fifo := rfl
  detect := rfl

theorem State.requestStatus_steady (s : State) : s.Steady s.requestStatus := by
  unfold State.requestStatus
  split
  · exact .refl s
  · exact (State.Steady.csu { s.csu with statusWaiting := true } rfl rfl rfl).trans (State.place_steady rfl _)

theorem State.setCauses_steady (w : Word) (s : State) : s.Steady (s.setCauses w) := by
  unfold State.setCauses
  split
  · exact .refl s
  · exact (State.Steady.csu { s.csu with causes := w } rfl rfl rfl).trans (State.requestStatus_steady _)

theorem State.raise_steady (c : Cause) (s : State) : s.Steady (s.raise c) := State.setCauses_steady _ s

/-! ### Counters and ranges -/

theorem State.count_steady (f : ShiftCounters → ShiftCounters) (s : State) : s.Steady (s.count f) :=
  .sac { s.sac with counters := f s.sac.counters }

theorem State.addGap_steady (g : Gap) (s : State) : s.Steady (s.addGap g) :=
  .lcu { s.lcu with gaps := gapAdd s.lcu.gaps g } rfl fun h => { h with gaps := length_gapAdd _ g h.gaps }

theorem State.addLoss_steady (c : LossCause) (g : Gap) (s : State) : s.Steady (s.addLoss c g) := by
  unfold State.addLoss
  split
  · exact .refl s
  · exact ((State.count_steady _ s).trans (State.raise_steady _ _)).trans (State.addGap_steady g _)

/-! ### Records -/

/-- One channel and the own requests change, within the channel's law and the capacities. -/
theorem State.Steady.requests {t : State} (h : s.Steady t) {ch : Fin 3} {f : Channel → Channel} {u : Tru}
    (htransit : u.transit = t.tru.transit) (hanswers : u.answers = t.tru.answers) (hbase : u.controlBase = t.tru.controlBase)
    (hown : u.own.length ≤ t.tru.own.length) (hflight : u.outstanding.length ≤ t.tru.outstanding.length)
    (hq : (t.channel ch).queue.length ≤ queueDepth ch → (f (t.channel ch)).queue.length ≤ queueDepth ch)
    (hothers : ∀ k, k ≠ ch → u.weightFor (.descriptor k) = t.tru.weightFor (.descriptor k)
      ∧ u.weightFor (.record k) = t.tru.weightFor (.record k))
    (ht : s.ChannelsTell → (t.channel ch).Tells (t.tru.weightFor (.descriptor ch)) (t.tru.weightFor (.record ch)) →
      (f (t.channel ch)).Tells (u.weightFor (.descriptor ch)) (u.weightFor (.record ch))) :
    s.Steady ({ t with tru := u }.onChannel ch f) where
  porstLow := h.porstLow
  ctlsel := h.ctlsel
  controlBase := hbase.trans h.controlBase
  capacities hs := { h.capacities hs with
    transit := htransit ▸ (h.capacities hs).transit
    own := Nat.le_trans hown (h.capacities hs).own
    outstanding := Nat.le_trans hflight (h.capacities hs).outstanding
    records := fun k => by
      by_cases hk : k = ch
      · subst hk
        rw [State.onChannel_channel_same]
        exact hq ((h.capacities hs).records k)
      · rw [State.onChannel_channel_ne _ f hk]
        exact (h.capacities hs).records k }
  tables hs := { h.tables hs with }
  slots hs := { h.slots hs with }
  channels hs k := by
    by_cases hk : k = ch
    · subst hk
      rw [State.onChannel_channel_same]
      exact ht hs (h.channels hs k)
    · rw [State.onChannel_channel_ne _ f hk]
      exact (hothers k hk).1 ▸ (hothers k hk).2 ▸ h.channels hs k
  counter := h.counter
  answered := h.answered.trans (.of_eq (congrArg _ htransit) hanswers)
  fifo := h.fifo
  detect := h.detect

/-- A channel changes within its law, as it was before what led here, and its capacity. -/
theorem State.Steady.thenChannel {t : State} (h : s.Steady t) {ch : Fin 3} {f : Channel → Channel}
    (hq : (t.channel ch).queue.length ≤ queueDepth ch → (f (t.channel ch)).queue.length ≤ queueDepth ch)
    (ht : s.ChannelsTell → ∀ reads writes, (t.channel ch).Tells reads writes → (f (t.channel ch)).Tells reads writes) :
    s.Steady (t.onChannel ch f) :=
  h.requests rfl rfl rfl (Nat.le_refl _) (Nat.le_refl _) hq (fun _ _ => ⟨rfl, rfl⟩) fun hs => ht hs _ _

/-- A channel changes within its law and its capacity. -/
theorem State.Steady.channel {ch : Fin 3} {f : Channel → Channel}
    (hq : (s.channel ch).queue.length ≤ queueDepth ch → (f (s.channel ch)).queue.length ≤ queueDepth ch)
    (ht : ∀ reads writes, (s.channel ch).Tells reads writes → (f (s.channel ch)).Tells reads writes) :
    s.Steady (s.onChannel ch f) :=
  (State.Steady.refl s).thenChannel hq fun _ => ht

/-- One record more that is queued keeps the balance (R139, R140). -/
theorem Channel.balance_queued (c : Channel) (r : Record) (n : Word) :
    { c with queue := c.queue ++ [r], nextSeq := n, produced := c.produced + 1 }.balance = c.balance := by
  have cancel (p w d q one : Word) : p + one - w - d - (q + one) = p - w - d - q := by grind
  simp only [Channel.balance, List.length_append, List.length_singleton, BitVec.ofNat_add]
  exact cancel ..

/-- One record more that is dropped keeps the balance (R139, R140). -/
theorem Channel.balance_dropped (c : Channel) (n : Word) :
    { c with nextSeq := n, produced := c.produced + 1, dropped := c.dropped + 1 }.balance = c.balance := by
  have cancel (p w d q one : Word) : p + one - w - (d + one) - q = p - w - d - q := by grind
  exact cancel ..

theorem State.produce_steady (ch : Fin 3) (b : RecordBody) (s : State) : s.Steady (s.produce ch b) := by
  unfold State.produce
  dsimp only
  split
  · next room =>
    refine .channel (fun _ => ?_) fun _ _ h => ⟨?_, fun _ => by simp, h.active, h.fetches, h.writes⟩
    · rw [List.length_append]
      exact room
    · rw [Channel.balance_queued, h.balance]
  · refine (State.Steady.trans (.channel id fun _ _ h => ?_) (State.count_steady _ _)).trans (State.raise_steady _ _)
    exact ⟨by rw [Channel.balance_dropped, h.balance], h.head, h.active, h.fetches, h.writes⟩

theorem State.pieceOutcome_steady (p : Piece) (o : PieceOutcome) (i : Option (Fin 4 × Byte × Pos)) (c : Byte) (s : State) :
    s.Steady (s.pieceOutcome p o i c) := by
  have counted : ∀ b f, s.Steady ((s.produce chPiece b).count f) := fun b f =>
    (State.produce_steady chPiece b s).trans (State.count_steady f _)
  unfold State.pieceOutcome
  cases o with
  | cut => exact counted _ _
  | missed => exact (counted _ _).trans (State.raise_steady _ _)
  | faulted => exact (counted _ _).trans (State.raise_steady _ _)
  | abandoned => exact counted _ _

/-! ### Commands -/

/-- The slots and the running commands change, the FIFO does not. -/
theorem State.Inner.thenCommands {t : State} (h : s.Inner t) {c : Csu} (hfifo : c.fifo = t.csu.fifo)
    (hread : (∀ r ∈ t.csu.running, r.phase.Canonical) → ∀ r ∈ c.running, r.phase.Canonical)
    (hslots : s.SlotsFollow → t.SlotsFollow → { t with csu := c }.SlotsFollow) : s.Inner { t with csu := c } where
  porstLow := h.porstLow
  ctlsel := h.ctlsel
  controlBase := h.controlBase
  capacities hs := { h.capacities hs with }
  tables hs := { h.tables hs with read := hread fun _ hr => (h.tables hs).phase hr }
  slots hs := hslots hs (h.slots hs)
  channels := h.channels
  counter := h.counter
  answered := h.answered
  fifo := hfifo.trans h.fifo

/-- A command whose number did not stand in the FIFO before what led here completes (R160). -/
theorem State.Inner.thenComplete {t : State} (h : s.Inner t) {n : Fin 8} (st : Status) (v : Word)
    (hn : s.SlotsFollow → n ∉ s.csu.fifo) : s.Inner (t.complete n st v) := by
  have placed := h.trans (State.place_steady (r := t.resultRequest n st v) rfl t).toInner
  have kept : ∀ k, k ≠ n →
      ((t.place (t.resultRequest n st v)).onSlot n fun x => { x with state := .free, overrun := false }).slot k = t.slot k :=
    fun k hk => State.onSlot_slot_ne (t.place _) _ hk
  refine (placed.thenCommands (c := { ((t.place (t.resultRequest n st v)).onSlot n fun x =>
      { x with state := .free, overrun := false }).csu with
        running := t.csu.running.filter fun r => r.slot != n }) rfl (fun hr r hm => hr r (List.mem_filter.mp hm).1)
    fun hs hu => ⟨hu.once, fun m hm => ?_, fun r hr => ?_⟩).trans (State.raise_steady _ _).toInner
  · have ne : m ≠ n := fun e => hn hs (h.fifo ▸ e ▸ hm)
    exact (congrArg Slot.state (kept m ne)).trans (hu.queued m hm)
  · obtain ⟨hr, hne⟩ := List.mem_filter.mp hr
    exact (congrArg Slot.state (kept r.slot (by simpa using hne))).trans (hu.running r hr)

/-- A command whose number does not stand in the FIFO completes (R160). -/
theorem State.complete_steady {n : Fin 8} (st : Status) (v : Word) (hn : s.SlotsFollow → n ∉ s.csu.fifo) :
    s.Steady (s.complete n st v) where
  toInner := (State.Inner.refl s).thenComplete st v hn
  detect := by rw [State.complete_fdu]

theorem State.mem_of_runningWith {f : Phase → Bool} {n : Fin 8} (h : s.runningWith f = some n) :
    ∃ r ∈ s.csu.running, f r.phase = true ∧ r.slot = n := by
  obtain ⟨r, hr, rfl⟩ := Option.map_eq_some_iff.mp h
  exact ⟨r, List.mem_of_find?_eq_some hr, List.find?_some (p := fun r : Running => f r.phase) hr, rfl⟩

/-- The number of a running command does not stand in the FIFO (R159). -/
theorem State.SlotsFollow.notMem_fifo (h : s.SlotsFollow) {r : Running} (hr : r ∈ s.csu.running) :
    r.slot ∉ s.csu.fifo := fun hq => nomatch (h.queued _ hq).symm.trans (h.running r hr)

theorem State.completeWith_steady (f : Phase → Bool) (v : Word) (s : State) : s.Steady (s.completeWith f v) := by
  unfold State.completeWith
  split
  · next n h =>
    obtain ⟨r, hr, -, rfl⟩ := State.mem_of_runningWith h
    exact State.complete_steady _ _ fun hs => hs.notMem_fifo hr
  · exact .refl s

theorem State.setPhase_steady {p : Phase} (hp : s.TablesCanonical → p.Canonical) (n : Fin 8) : s.Steady (s.setPhase n p) where
  porstLow := rfl
  ctlsel := rfl
  controlBase := rfl
  capacities h := { h with }
  tables h := { h with
    read := fun r hr => by
      obtain ⟨q, hq, rfl⟩ := List.mem_map.mp hr
      split
      · exact hp h
      · exact h.phase hq }
  slots h := { h with
    running := fun r hr => by
      obtain ⟨q, hq, rfl⟩ := List.mem_map.mp hr
      split <;> exact h.running q hq }
  channels h := h
  counter := rfl
  answered := .of_eq rfl rfl
  fifo := rfl
  detect := rfl

/-! ### The places of an event's own requests -/

theorem State.placeAll_weightFor (s : State) (p : OwnPurpose) : s.placeAll.tru.weightFor p = s.tru.weightFor p := by
  have sorted : weightIn s.tru.placing p = weightIn (rankSorted s.tru.placing) p :=
    (weightIn_of_perm (rankSorted_perm s.tru.placing) p).symm
  have parts : ∀ room, weightIn (rankSorted s.tru.placing) p
      = weightIn ((rankSorted s.tru.placing).take room) p + weightIn ((rankSorted s.tru.placing).drop room) p := fun room => by
    rw [← weightIn_append, List.take_append_drop]
  rw [Tru.weightFor_eq, Tru.weightFor_eq, sorted, State.placeAll]
  dsimp only
  rw [parts (if s.tru.waiting.isEmpty then ownCapacity - s.tru.own.length else 0), weightIn_append, weightIn_append, weightIn_nil,
    Tru.ownFlight, Tru.ownFlight]
  dsimp only
  omega

theorem State.placeAll_steady (s : State) : s.Steady s.placeAll where
  porstLow := rfl
  ctlsel := rfl
  controlBase := rfl
  capacities h := { h with
    own := by
      have := h.own
      have capacity : ownCapacity = 32 := rfl
      simp only [State.placeAll, List.length_append, List.length_take]
      split <;> omega }
  tables h := { h with }
  slots h := { h with }
  channels h ch := by
    rw [State.placeAll_weightFor, State.placeAll_weightFor]
    exact h ch
  counter := rfl
  answered := .of_eq rfl rfl
  fifo := rfl
  detect := rfl

end Sys2Proof.Machine
end

section
/-! PROOFS. The planner, the line capture unit and the flaw detection unit keep what `State.Steady` and `State.Inner` say. -/

namespace Sys2Proof.Machine

variable {s : State}

/-! ### The planner -/

theorem State.armAt_steady (p : Pos) (s : State) : s.Steady (s.armAt p) := .ppl _

theorem State.armDeadline_steady (s : State) : s.Steady s.armDeadline := by
  unfold State.armDeadline
  split
  · exact State.armAt_steady _ s
  · exact .refl s

theorem State.openPiece_steady (p : Pos) (seen : Bool) (s : State) : s.Steady (s.openPiece p seen) :=
  State.Steady.trans (.ppl { s.ppl with scanSeen := seen }) (State.armAt_steady p _)

theorem State.takePlannerTables_steady (s : State) : s.Steady s.takePlannerTables := by
  have grade : s.Steady
      (match s.ppl.stagedGrade with
        | some g => { s with ppl.grade := g, ppl.stagedGrade := none }
        | none => s) := by
    split
    · exact .ppl _
    · exact .refl s
  have product : ∀ u : State, u.Steady
      (match u.ppl.stagedProduct with
        | some t =>
          { u with
            ppl.product := t, ppl.stagedProduct := none, ppl.lmin := shortest t.lengths,
            ppl.lmax := t.lengths.foldl max 0 }.armDeadline
        | none => u) := fun u => by
    split
    · exact (State.Steady.ppl _).trans (State.armDeadline_steady _)
    · exact .refl u
  exact grade.trans (product _)

theorem State.computeProvisional_steady (s : State) : s.Steady s.computeProvisional := .ppl _

/-- Truncation keeps every blob, as itself or as its continuation (R62). -/
theorem length_truncateBlobs (e : Pos) (ids : List Nat) (l : List Blob) :
    ∀ done last, (truncateBlobs e ids done l last).1.length = done.length + l.length := by
  induction l with
  | nil => intro done last; rfl
  | cons b rest ih =>
    intro done last
    unfold truncateBlobs
    (repeat' split) <;> rw [ih] <;> simp only [List.length_append, List.length_cons, List.length_nil] <;> omega

theorem State.changeCollections_steady (mode : CommitMode) (e : Pos) (seq : Word) (s : State) :
    s.Steady (s.changeCollections mode e seq) := by
  have blobs : ∀ ids, (if mode.withBlobs then truncateBlobs e ids [] s.fdu.blobs s.fdu.lastBlobId
      else (s.fdu.blobs, s.fdu.lastBlobId)).1.length = s.fdu.blobs.length := fun ids => by
    split
    · rw [length_truncateBlobs]; simp
    · rfl
  exact .lcuFdu _ _ rfl rfl (fun h => { h with gaps := Nat.le_trans (length_gapClip e _) h.gaps })
    (fun h => ⟨Nat.le_trans (Nat.le_of_eq (blobs _)) h.blobs, Nat.le_trans (List.length_filterMap_le _ _) h.store⟩) fun h => { h with }

theorem State.recordFlaw_steady (seq : Word) (s : State) (f : Flaw) : s.Steady (s.recordFlaw seq f) :=
  (State.produce_steady _ _ s).trans (State.count_steady _ _)

/-- A piece is appended to a cut queue that has a place (R92). -/
theorem State.enqueue_steady (e : Entry) (h : s.cdu.queue.length < cutQueueCapacity) :
    s.Steady { s with cdu.queue := s.cdu.queue ++ [e] } where
  porstLow := rfl
  ctlsel := rfl
  controlBase := rfl
  capacities hs := { hs with
    cuts := by
      have capacity : cutQueueCapacity = 16 := rfl
      simp only [List.length_append, List.length_singleton]
      omega }
  tables h := { h with }
  slots h := { h with }
  channels h := h
  counter := rfl
  answered := .of_eq rfl rfl
  fifo := rfl
  detect := rfl

theorem State.commit_steady (mode : CommitMode) (start : Pos) (c : Choice) (s : State) : s.Steady (s.commit mode start c) := by
  have changed : s.Steady ({ s with ppl.nextPiece := nextSequence s.ppl.nextPiece }.changeCollections mode c.stop
      (s.pieceOf mode start c).seq) :=
    State.Steady.trans (.ppl _) (State.changeCollections_steady ..)
  have recorded : ∀ u : State, u.Steady (((s.assigned mode c.stop).foldl (State.recordFlaw (s.pieceOf mode start c).seq) u).armAt
      c.stop) := fun u =>
    State.Steady.trans (.foldl (fun s f => State.recordFlaw_steady _ s f) _ u) (State.armAt_steady _ _)
  unfold State.commit
  dsimp only
  split
  · exact (changed.trans (recorded _)).trans (State.pieceOutcome_steady ..)
  · next room => exact (changed.trans (State.enqueue_steady _ (Nat.not_le.mp room))).trans (recorded _)

theorem State.checkLoop_steady (fuel : Nat) : ∀ s : State, s.Steady (State.checkLoop fuel s) := by
  induction fuel with
  | zero => exact .refl
  | succ fuel ih =>
    intro s
    unfold State.checkLoop
    split
    · exact .refl s
    · split
      · split
        · exact .refl s
        · split
          · exact .refl s
          · exact (State.commit_steady ..).trans (ih _)
      · exact .refl s

theorem State.plannerCheck_steady (s : State) : s.Steady s.plannerCheck :=
  ((State.takePlannerTables_steady s).trans (State.checkLoop_steady _ _)).trans (State.computeProvisional_steady _)

theorem State.expiry_steady (s : State) : s.Steady s.expiry := by
  unfold State.expiry
  dsimp only
  split
  · exact State.takePlannerTables_steady s
  · split
    · exact (((State.takePlannerTables_steady s).trans (State.commit_steady ..)).trans (State.checkLoop_steady _ _)).trans
        (State.computeProvisional_steady _)
    · exact State.takePlannerTables_steady s

theorem State.manualCommit_steady (e : Pos) (s : State) : s.Steady (s.manualCommit e) := by
  unfold State.manualCommit
  split
  · exact .refl s
  · exact ((State.commit_steady ..).trans (State.checkLoop_steady _ _)).trans (State.computeProvisional_steady _)

theorem State.plannerIdle_steady (s : State) : s.Steady s.plannerIdle :=
  State.Steady.trans (.ppl _) (State.takePlannerTables_steady _)

/-! ### Stamps and triggers -/

theorem State.pushStamp_steady (p : Pos) (s : State) : s.Steady (s.pushStamp p) := by
  have capacity : fifoCapacity = 16 := rfl
  unfold State.pushStamp
  split
  · next old rest hf =>
    split
    · next room =>
      exact .lcu _ rfl fun h => { h with
        stamps := by
          simp only [List.length_append, List.length_singleton]
          omega }
    · next full =>
      refine (State.addLoss_steady .triggerOverrun _ s).trans (.lcu _ rfl fun h => { h with stamps := ?_ })
      have := h.stamps
      simp only [State.addLoss_lcu_fifo, hf, List.length_append, List.length_cons, List.length_nil] at this ⊢
      omega
  · exact .lcu _ rfl fun h => { h with stamps := by simp }

theorem State.disarmResume_steady (p : Pos) (s : State) : s.Steady (s.disarmResume p) := by
  have disarmed : s.Steady { s with lcu.resumeArmed := false } := .lcu _ rfl fun h => { h with }
  unfold State.disarmResume
  dsimp only
  split
  · split
    · exact disarmed
    · split
      · exact disarmed.trans (State.addGap_steady _ _)
      · exact disarmed
  · exact .refl s

theorem State.openAtStamp_steady (p : Pos) (s : State) : s.Steady (s.openAtStamp p) := by
  unfold State.openAtStamp
  split
  · exact State.openPiece_steady p false s
  · exact .refl s

theorem State.trigger_steady (s : State) : s.Steady s.trigger :=
  ((State.Steady.trans (.lcu { s.lcu with ltrig := true, divider := s.fdu.detect.ldiv } rfl fun h => { h with })
    (State.pushStamp_steady _ _)).trans (State.disarmResume_steady _ _)).trans (State.openAtStamp_steady _ _)

/-! ### Tables of the LCU and the FDU -/

theorem State.takeDetect_inner (s : State) : s.Inner s.takeDetect := by
  unfold State.takeDetect
  split
  · exact .refl s
  · exact .lcuFdu _ _ rfl (fun h => { h with }) (fun h => { h with }) fun h => { h with }

/-- A staged table, or the one in force if none is staged, is canonical. -/
theorem wf_getD {α : Type} [DecidableEq α] {d : α} {c : Cells α} {o : Option (Cells α)} (hc : Cells.wf d c = true)
    (ho : ∀ t, o = some t → Cells.wf d t = true) : Cells.wf d (o.getD c) = true := by
  cases o with
  | none => exact hc
  | some t => exact ho t rfl

theorem State.takeColumnsClassReference_steady (s : State) : s.Steady s.takeColumnsClassReference :=
  .fdu _ rfl (fun h => { h with }) fun h =>
    { columns := wf_getD h.columns h.stagedColumns
      reference := wf_getD h.reference h.stagedReference
      stagedColumns := fun _ e => nomatch e
      stagedReference := fun _ e => nomatch e }

theorem State.takeFduTables_inner (s : State) : s.Inner s.takeFduTables :=
  (State.takeDetect_inner s).trans (State.takeColumnsClassReference_steady _).toInner

theorem State.discardLines_steady (ldiv : Nat) (s : State) : s.Steady (s.discardLines ldiv) := by
  have lost := State.Steady.foldl (fun s p => State.addLoss_steady .lineBreak (stampRange p ldiv) s)
    (s.lcu.lineQueue.map Line.stamp ++ s.lcu.assembly.toList.map Assembly.stamp) s
  exact lost.trans (.lcuFdu _ _ rfl rfl (fun h => { h with lines := Nat.zero_le _ }) (fun h => { h with }) fun h => { h with })

theorem State.beginAnalysis_inner (s : State) : s.Inner s.beginAnalysis := by
  unfold State.beginAnalysis
  dsimp only
  split
  · exact .refl s
  · split
    · exact (State.takeFduTables_inner s).trans (State.discardLines_steady _ _).toInner
    · exact (State.takeFduTables_inner s).trans (.fdu _ (fun h => { h with }) fun h => { h with })

/-! ### Assembly -/

theorem State.dropSurplus_steady (l : List Pos) :
    ∀ s : State, l.length ≤ s.lcu.fifo.length → s.Steady (State.dropSurplus l s) := by
  induction l with
  | nil => exact fun s _ => .lcu _ rfl fun h => { h with stamps := Nat.zero_le _ }
  | cons p rest ih =>
    intro s hl
    unfold State.dropSurplus
    split
    · exact .lcu _ rfl fun h => { h with stamps := Nat.le_trans hl h.stamps }
    · refine (State.addLoss_steady .triggerOverrun _ s).trans (ih _ ?_)
      rw [State.addLoss_lcu_fifo]
      exact Nat.le_of_succ_le hl

theorem State.takeStamp_steady (s : State) : s.Steady s.takeStamp.2.2 := by
  have dropped := State.dropSurplus_steady s.lcu.fifo s (Nat.le_refl _)
  unfold State.takeStamp
  dsimp only
  generalize s.dropSurplus s.lcu.fifo = u at dropped ⊢
  split
  · next p rest hf =>
    refine dropped.trans (.lcu _ rfl fun h => { h with stamps := ?_ })
    have := h.stamps
    rw [hf] at this
    exact Nat.le_of_succ_le this
  · have stamped : u.Steady { u with lcu.lastStamp := ahead u.lcu.lastStamp u.fdu.detect.ldiv } :=
      .lcu _ rfl fun h => { h with }
    dsimp only
    exact (dropped.trans stamped).trans (State.count_steady _ _)

theorem State.offerLine_inner (l : Line) (s : State) : s.Inner (s.offerLine l) := by
  unfold State.offerLine
  split
  · exact State.Inner.trans (.lcu { s.lcu with lineQueue := [l] } rfl fun h => { h with lines := by simp })
      (State.beginAnalysis_inner _)
  · exact .lcu _ rfl fun h => { h with lines := by simp }
  · exact (State.addLoss_steady .analysisOverrun _ s).toInner

theorem State.assembled_inner (a : Assembly) (s : State) : s.Inner (s.assembled a) := by
  unfold State.assembled
  split
  · exact State.Inner.trans (.lcu { s.lcu with assembly := none } rfl fun h => { h with }) (State.offerLine_inner _ _)
  · exact .lcu _ rfl fun h => { h with }

theorem State.beatInNoLine_inner (addr : Nat) (data : List Byte) (full : Bool) (s : State) :
    s.Inner (s.beatInNoLine addr data full) := by
  unfold State.beatInNoLine
  split
  · exact (State.takeStamp_steady s).toInner.trans (State.assembled_inner _ _)
  · exact .refl s

theorem State.imageBeat_inner (addr : Nat) (data : List Byte) (enables : BitVec 32) (s : State) :
    s.Inner (s.imageBeat addr data enables) := by
  unfold State.imageBeat
  dsimp only
  split
  · exact State.beatInNoLine_inner _ _ _ s
  · split
    · exact State.assembled_inner _ s
    · exact ((State.addLoss_steady .lineBreak _ s).trans (.lcu { State.lcu _ with assembly := none } rfl fun h => { h with })).toInner.trans
        (State.beatInNoLine_inner _ _ _ _)

theorem State.stopCapture_steady (s : State) : s.Steady s.stopCapture := by
  have stamps := State.Steady.foldl (fun u p => State.addGap_steady (stampRange p s.fdu.detect.ldiv) u) s.lcu.fifo s
  unfold State.stopCapture
  dsimp only
  generalize s.lcu.fifo.foldl (fun u p => u.addGap (stampRange p s.fdu.detect.ldiv)) s = u at stamps ⊢
  have assembly := State.Steady.foldl (fun u a => State.addGap_steady (stampRange (Assembly.stamp a) s.fdu.detect.ldiv) u)
    u.lcu.assembly.toList u
  exact (stamps.trans assembly).trans (.lcu _ rfl fun h => { h with stamps := Nat.zero_le _ })

theorem State.resetCapture_steady (s : State) : s.Steady s.resetCapture :=
  .lcu _ rfl fun _ => ⟨Nat.zero_le _, Nat.zero_le _, Nat.zero_le _⟩

/-! ### The flaw store and the blob table -/

theorem State.offerFlaw_steady (f : Flaw) (s : State) : s.Steady (s.offerFlaw f) := by
  unfold State.offerFlaw
  split
  · next room =>
    have capacity : storeCapacity = 512 := rfl
    refine .fdu _ rfl (fun h => { h with store := ?_ }) fun h => { h with }
    rw [List.length_append, List.length_singleton]
    omega
  · exact State.addLoss_steady ..

theorem State.closeBlob_steady (s : State) (x : Blob × Bool) : s.Steady (s.closeBlob x) := by
  unfold State.closeBlob
  split
  · exact .refl s
  · exact State.offerFlaw_steady _ s

/-- A closed blob has left the table already. -/
theorem State.closeBlob_blobs (s : State) (x : Blob × Bool) : (s.closeBlob x).fdu.blobs = s.fdu.blobs := by
  unfold State.closeBlob State.offerFlaw
  (repeat' split) <;> simp only [State.addLoss_fdu]

theorem State.foldl_closeBlob_blobs (l : List (Blob × Bool)) : ∀ s : State, (l.foldl State.closeBlob s).fdu.blobs = s.fdu.blobs := by
  induction l with
  | nil => exact fun _ => rfl
  | cons x l ih => exact fun s => (ih _).trans (State.closeBlob_blobs s x)

/-- Placing a run opens at most one blob, and only in a table with a place (R45). -/
theorem length_linkRun (t : Detect) (stamp : Pos) (ids : List Nat) (l : Linking) (r : Run) (h : l.works.length ≤ 64) :
    (linkRun t stamp ids l r).works.length ≤ 64 := by
  have capacity : blobCapacity = 64 := rfl
  unfold linkRun
  dsimp only
  split
  · split
    · rw [List.length_append, List.length_singleton]
      omega
    · exact h
  · exact Nat.le_trans (List.length_filterMap_le _ _) h

theorem length_linkRuns (t : Detect) (stamp : Pos) (ids : List Nat) (blobs : List Blob) (last : Nat) (runs : List Run)
    (h : blobs.length ≤ 64) : (linkRuns t stamp ids blobs last runs).works.length ≤ 64 := by
  have placed : ∀ (runs : List Run) (l : Linking), l.works.length ≤ 64 →
      (runs.foldl (linkRun t stamp ids) l).works.length ≤ 64 := by
    intro runs
    induction runs with
    | nil => exact fun _ hl => hl
    | cons r runs ih => exact fun l hl => ih _ (length_linkRun t stamp ids l r hl)
  exact placed runs _ (by simpa using h)

/-- The successors join the table behind the blobs that stay; nothing else of the part changes but the last id. -/
theorem State.foldl_openSuccessor (stamp : Pos) (l : List Blob) : ∀ s : State, ∃ next n,
    next.length = l.length
      ∧ l.foldl (State.openSuccessor stamp) s = { s with fdu.blobs := s.fdu.blobs ++ next, fdu.lastBlobId := n } := by
  induction l with
  | nil => exact fun s => ⟨[], s.fdu.lastBlobId, rfl, by simp⟩
  | cons b l ih =>
    intro s
    obtain ⟨next, n, hlen, h⟩ := ih (s.openSuccessor stamp b)
    refine ⟨b.successor s.fdu.detect stamp (nextBlobId (s.fdu.blobs.map Blob.id ++ s.fdu.store.map Flaw.id) s.fdu.lastBlobId)
      :: next, n, by simp [hlen], h.trans ?_⟩
    simp [State.openSuccessor]

/-- Blobs replaced within the capacity of the table. -/
theorem State.Steady.reblob {t : State} (h : s.Steady t) (blobs : List Blob) (last : Nat)
    (hb : s.Capacities → blobs.length ≤ 64) : s.Steady { t with fdu.blobs := blobs, fdu.lastBlobId := last } where
  porstLow := h.porstLow
  ctlsel := h.ctlsel
  controlBase := h.controlBase
  capacities hs := { h.capacities hs with blobs := hb hs }
  tables hs := { h.tables hs with }
  slots hs := { h.slots hs with }
  channels := h.channels
  counter := h.counter
  answered := h.answered
  fifo := h.fifo
  detect := h.detect

theorem insertById_perm (x : Blob × Bool) (l : List (Blob × Bool)) : (insertById x l).Perm (x :: l) := by
  induction l with
  | nil => rfl
  | cons y rest ih =>
    unfold insertById
    split
    · rfl
    · exact (ih.cons y).trans (.swap x y rest)

/-- Closing blobs are put in order, none is added or lost. -/
theorem sortById_perm (l : List (Blob × Bool)) : (sortById l).Perm l := by
  induction l with
  | nil => rfl
  | cons x l ih => exact (insertById_perm x _).trans (ih.cons x)

/-- As many blobs close by splitting as were split: the order of closing only reorders. -/
theorem length_filter_sortById (split quiet : List Blob) :
    ((sortById (split.map (fun b => (b, true)) ++ quiet.map fun b => (b, false))).filter Prod.snd).length = split.length := by
  rw [((sortById_perm _).filter _).length_eq]
  rw [List.filter_append, List.filter_eq_self.mpr, List.filter_eq_nil_iff.mpr, List.append_nil, List.length_map]
  · intro x hx
    obtain ⟨b, -, rfl⟩ := List.mem_map.mp hx
    exact Bool.false_ne_true
  · intro x hx
    obtain ⟨b, -, rfl⟩ := List.mem_map.mp hx
    rfl

theorem State.linkLine_steady (stamp : Pos) (runs : List Run) (s : State) : s.Steady (s.linkLine stamp runs) := by
  unfold State.linkLine
  dsimp only
  generalize hl : linkRuns s.fdu.detect stamp (s.fdu.store.map Flaw.id) s.fdu.blobs s.fdu.lastBlobId runs = l
  generalize hu : (if l.lost = true then s.addLoss .blobTableFull (stampRange stamp s.fdu.detect.ldiv) else s) = u
  have lost : s.Steady u := by
    rw [← hu]
    split
    · exact State.addLoss_steady ..
    · exact .refl s
  generalize hsplit : l.works.filter (Work.splits s.fdu.detect stamp) = split
  generalize hgoing : ((l.works.filter fun w => !w.splits s.fdu.detect stamp).map Work.finish) = going
  have total : s.Capacities → split.length + going.length ≤ 64 := fun h => by
    have all := length_linkRuns s.fdu.detect stamp (s.fdu.store.map Flaw.id) s.fdu.blobs s.fdu.lastBlobId runs h.blobs
    rw [hl] at all
    rw [← hsplit, ← hgoing, List.length_map, length_filter_add_filter_not]
    exact all
  have stays : s.Capacities → (going.filter fun b => !b.quiet s.fdu.detect stamp).length ≤ 64 - split.length := fun h => by
    have := List.length_filter_le (fun b : Blob => !b.quiet s.fdu.detect stamp) going
    have := total h
    omega
  have emptied := lost.reblob (going.filter fun b => !b.quiet s.fdu.detect stamp) l.lastId fun h =>
    Nat.le_trans (stays h) (Nat.sub_le _ _)
  generalize hclosing : sortById (split.map (fun w => (w.finish, true))
    ++ (going.filter (Blob.quiet s.fdu.detect stamp)).map fun b => (b, false)) = closing
  have successors : (closing.filter Prod.snd).length = split.length := by
    rw [← hclosing, ← List.length_map (as := split) Work.finish, ← length_filter_sortById, List.map_map]
    rfl
  have closed := emptied.trans (.foldl State.closeBlob_steady closing _)
  obtain ⟨next, n, hlen, h⟩ := State.foldl_openSuccessor stamp ((closing.filter Prod.snd).map Prod.fst)
    (closing.foldl State.closeBlob
      { u with fdu.blobs := going.filter fun b => !b.quiet s.fdu.detect stamp, fdu.lastBlobId := l.lastId })
  rw [h]
  refine closed.reblob _ n fun hs => ?_
  have := stays hs
  have := total hs
  rw [State.foldl_closeBlob_blobs, List.length_append, hlen, List.length_map, successors]
  dsimp only
  omega

/-! ### The end of an analysis -/

theorem State.openAtLine_steady (stamp : Pos) (s : State) : s.Steady (s.openAtLine stamp) := by
  unfold State.openAtLine
  split
  · exact State.openPiece_steady ..
  · exact .ppl _

theorem State.linkOrDiscard_steady (stamp : Pos) (runs : List Run) (s : State) : s.Steady (s.linkOrDiscard stamp runs) := by
  unfold State.linkOrDiscard
  dsimp only
  split
  · split
    · exact (State.addGap_steady _ s).trans (State.linkLine_steady ..)
    · exact State.linkLine_steady ..
  · exact State.linkLine_steady ..

theorem State.takeSnapshot_steady (addr : Nat) (s : State) : s.Steady (s.takeSnapshot addr) :=
  .foldl (fun s i => State.place_steady (r := { purpose := .snapshot, kind := .write, addr := addr + 512 * i, beats := 16, data := _ })
    rfl s) _ s

theorem State.takePendingSnapshot_steady (s : State) : s.Steady s.takePendingSnapshot := by
  unfold State.takePendingSnapshot
  split
  · exact State.Steady.trans (.fdu { s.fdu with snapshot := none } rfl (fun h => { h with }) fun h => { h with })
      (State.takeSnapshot_steady _ _)
  · exact .refl s

theorem State.learnStep_steady (s : State) : s.Steady s.learnStep := by
  unfold State.learnStep
  dsimp only
  split
  · exact State.Steady.trans
      (.fdu { s.fdu with learnCount := 0, mode := .run } rfl (fun h => { h with }) fun h => { h with })
      (.csu { s.csu with inspection := if s.csu.inspection = .learn then .run else s.csu.inspection } rfl rfl rfl)
  · exact .fdu _ rfl (fun h => { h with }) fun h => { h with }

theorem State.learnLine_steady (stamp : Pos) (s : State) : s.Steady (s.learnLine stamp) :=
  (State.addGap_steady _ s).trans (State.learnStep_steady _)

theorem State.countRefresh_steady (s : State) : s.Steady s.countRefresh := by
  unfold State.countRefresh
  dsimp only
  split
  · exact .refl s
  · split
    · exact State.Steady.trans (.csu { s.csu with refreshCount := 0 } rfl rfl rfl) (State.requestStatus_steady _)
    · exact .csu _ rfl rfl rfl

theorem State.stoppingEnd_inner (s : State) : s.Inner s.stoppingEnd := by
  have emptied : s.Steady { s with fdu.blobs := [] } :=
    .fdu _ rfl (fun h => { h with blobs := Nat.zero_le _ }) fun h => { h with }
  have closed := emptied.trans (.foldl State.closeBlob_steady (sortById (s.fdu.blobs.map fun b => (b, false))) _)
  have off := closed.trans (.csu { State.csu _ with inspection := .off } rfl rfl rfl)
  exact (off.toInner.trans (State.takeFduTables_inner _)).trans (State.completeWith_steady _ _ _).toInner

theorem State.endStoppingIfDrained_inner (s : State) : s.Inner s.endStoppingIfDrained := by
  unfold State.endStoppingIfDrained
  split
  · exact State.stoppingEnd_inner s
  · exact .refl s

theorem State.nextLine_inner (s : State) : s.Inner s.nextLine := by
  refine State.Inner.trans (.lcuFdu { s.lcu with lineQueue := s.lcu.lineQueue.tail } { s.fdu with analysis := none } rfl
    (fun h => { h with lines := ?_ }) (fun h => { h with }) fun h => { h with }) (State.beginAnalysis_inner _)
  rw [List.length_tail]
  exact Nat.le_trans (Nat.sub_le _ _) h.lines

theorem State.lineResults_steady (l : Line) (mode : LineMode) (s : State) : s.Steady (s.lineResults l mode) := by
  unfold State.lineResults
  dsimp only
  generalize hcols : columnsOf s.fdu.columns s.fdu.reference l.pixels = cols
  have tracked : s.Steady { s with fdu.reference := referenceAfter s.fdu.detect mode cols s.fdu.reference } :=
    .fdu _ rfl (fun h => { h with }) fun h => { h with reference := referenceAfter_wf .. }
  have linked := ((tracked.trans (State.openAtLine_steady l.stamp _)).trans
    (State.linkOrDiscard_steady l.stamp (lineRuns s.fdu.detect mode cols) _)).trans
    (State.count_steady (fun k => { k with lines := satAdd max32 k.lines 1 }) _)
  have scanned := linked.trans
    (.fdu { State.fdu _ with scan := ahead l.stamp s.fdu.detect.ldiv } rfl (fun h => { h with }) fun h => { h with })
  cases mode with
  | learn => exact scanned.trans (State.learnLine_steady _ _)
  | run => exact scanned

theorem State.analysisEnds_inner (s : State) : s.Inner s.analysisEnds := by
  unfold State.analysisEnds
  split
  · next mode l rest _ _ =>
    have results := ((State.lineResults_steady l mode s).trans (State.takePendingSnapshot_steady _)).trans
      ((State.plannerCheck_steady _).trans (State.countRefresh_steady _))
    exact (results.toInner.trans (State.nextLine_inner _)).trans (State.endStoppingIfDrained_inner _)
  · exact .refl s

end Sys2Proof.Machine
end

section
/-! PROOFS. The cut queue, the bridges, the link and the shift timer are steady. -/

namespace Sys2Proof.Machine

variable {s : State}

/-! ### Entries and bridges -/

theorem State.onBridge_steady (b : Fin 4) (f : Bridge → Bridge) (s : State) : s.Steady (s.onBridge b f) :=
  .cdu _ (Nat.le_refl _)

theorem State.setBridge_steady (b : Fin 4) (st : BridgeState) (s : State) : s.Steady (s.setBridge b st) :=
  State.onBridge_steady ..

theorem State.entryOutcome_steady (o : PieceOutcome) (s : State) (e : Entry) : s.Steady (s.entryOutcome o e) :=
  (State.Steady.cdu { s.cdu with queue := s.cdu.queue.filter fun x => x.piece.seq != e.piece.seq }
    (List.length_filter_le _ _)).trans (State.pieceOutcome_steady ..)

theorem State.setEntry_steady (seq : Word) (st : EntryState) (s : State) : s.Steady (s.setEntry seq st) :=
  .cdu _ (Nat.le_of_eq (List.length_map _))

theorem State.missTestOn_steady (seq : Word) (s : State) : s.Steady (s.missTestOn seq) := by
  unfold State.missTestOn
  split
  · split
    · exact State.entryOutcome_steady ..
    · exact .refl s
  · exact .refl s

theorem State.missTestAll_steady (s : State) : s.Steady s.missTestAll :=
  .foldl (State.entryOutcome_steady _) _ s

theorem State.endBusy_steady (b : Fin 4) (st : BridgeState) (s : State) : s.Steady (s.endBusy b st) := by
  unfold State.endBusy
  split <;> exact State.onBridge_steady ..

theorem State.bridgeFaulted_steady (b : Fin 4) (s : State) : s.Steady (s.bridgeFaulted b) :=
  (State.count_steady _ s).trans (State.raise_steady _ _)

theorem State.setMask_steady (mask : BitVec 4) (s : State) : s.Steady (s.setMask mask) := .cdu _ (Nat.le_refl _)

theorem State.clearMisses_steady (b : Fin 4) (s : State) : s.Steady (s.clearMisses b) := State.onBridge_steady ..

theorem State.chargeMiss_steady (b : Fin 4) (s : State) : s.Steady (s.chargeMiss b) := by
  have offline : ∀ u : State, u.Steady ((u.setBridge b .offline).raise .bridgeFault) := fun u =>
    (State.setBridge_steady b .offline u).trans (State.raise_steady _ _)
  have charged := (State.onBridge_steady b (fun x => { x with misses := min 3 (x.misses + 1) }) s).trans
    (State.count_steady (fun k => { k with bridgeMisses := bump k.bridgeMisses b 1 }) _)
  unfold State.chargeMiss
  dsimp only
  split
  · exact charged
  · refine charged.trans ?_
    generalize State.count _ _ = u
    split
    · exact .refl u
    · exact .refl u
    · have ended := (State.endBusy_steady b .offline u).trans (State.raise_steady .bridgeFault _)
      split
      · exact ended.trans (State.entryOutcome_steady ..)
      · exact ended
    · exact offline u
    · exact offline u
    · exact offline u

theorem State.timeoutBridge_steady (s : State) (b : Fin 4) : s.Steady (s.timeoutBridge b) := by
  have ended := (State.onBridge_steady b (fun x => { x with faultCode := timeoutCode }) s).trans (State.endBusy_steady b .fault _)
  unfold State.timeoutBridge
  dsimp only
  split
  · exact ended.trans (State.bridgeFaulted_steady _ _)
  · exact ended

theorem State.timeoutTestAll_steady (s : State) : s.Steady s.timeoutTestAll :=
  (State.Steady.foldl State.timeoutBridge_steady _ s).trans (.foldl (State.entryOutcome_steady _) _ _)

/-! ### The poll loop -/

theorem State.startCut_steady (e : Entry) (b : Fin 4) (s : State) : s.Steady (s.startCut e b) :=
  (State.setEntry_steady e.piece.seq (.waiting true) s).trans (.cdu _ (Nat.le_refl _))

theorem State.startRound_steady (s : State) : s.Steady s.startRound := by
  have began : s.Steady { s with cdu.loopPos := 0, cdu.gapRunning := false } := .cdu _ (Nat.le_refl _)
  unfold State.startRound
  dsimp only
  split <;> exact began.trans (.cdu _ (Nat.le_refl _))

theorem State.startGap_steady (s : State) : s.Steady s.startGap := .cdu _ (Nat.le_refl _)

theorem State.chooseNext_steady (s : State) : s.Steady s.chooseNext := by
  unfold State.chooseNext
  split
  · exact .cdu _ (Nat.le_refl _)
  · dsimp only
    generalize hu : (if s.cdu.gapRunning = false ∧ s.nextVisit = none then s.startGap else s) = u
    have gap : s.Steady u := by
      rw [← hu]
      split
      · exact State.startGap_steady s
      · exact .refl s
    refine gap.trans ?_
    split
    · exact State.startCut_steady ..
    · split
      · split
        · exact State.startRound_steady u
        · exact .cdu _ (Nat.le_refl _)
      · split
        · exact .cdu _ (Nat.le_refl _)
        · exact .refl u

theorem State.takeLink_steady (s : State) : s.Steady s.takeLink := by
  have link : s.Steady
      (match s.cdu.stagedLink with
        | some t => ({ s with cdu.link := t, cdu.stagedLink := none }.setMask t.mask).armDeadline
        | none => s) := by
    split
    · next t _ =>
      exact (State.Steady.trans (.cdu { s.cdu with link := t, stagedLink := none } (Nat.le_refl _))
        (State.setMask_steady _ _)).trans (State.armDeadline_steady _)
    · exact .refl s
  have mask : ∀ u : State, u.Steady
      (match u.cdu.newMask with
        | some m => ({ u with cdu.newMask := none }.setMask m).completeWith isBridgeMask 0
        | none => u) := fun u => by
    split
    · exact (State.Steady.trans (.cdu { u.cdu with newMask := none } (Nat.le_refl _)) (State.setMask_steady _ _)).trans
        (State.completeWith_steady _ _ _)
    · exact .refl u
  exact link.trans (mask _)

theorem State.reviewEngine_steady (s : State) : s.Steady s.reviewEngine := by
  unfold State.reviewEngine
  split
  · split
    · exact .refl s
    · exact State.startRound_steady s
  · split
    · exact .cdu _ (Nat.le_refl _)
    · exact .refl s
  · exact .refl s

theorem State.takeLinkIfBetween_steady (s : State) : s.Steady s.takeLinkIfBetween := by
  unfold State.takeLinkIfBetween
  split
  · exact (State.takeLink_steady s).trans (State.reviewEngine_steady _)
  · exact .refl s

theorem State.boundary_steady (s : State) : s.Steady s.boundary :=
  (State.takeLink_steady s).trans (State.chooseNext_steady _)

/-! ### Responses -/

theorem State.issue_steady (b : Fin 4) (piece : Word) (tag : Byte) (s : State) : s.Steady (s.issue b piece tag) :=
  (State.setEntry_steady ..).trans (State.onBridge_steady ..)

theorem State.cutEnds_steady (o : CutEnd) (b : Fin 4) (piece : Word) (tag : Byte) (s : State) :
    s.Steady (s.cutEnds o b piece tag) := by
  cases o with
  | accepted => exact (State.issue_steady ..).trans (State.clearMisses_steady _ _)
  | refused =>
    exact (((State.setEntry_steady ..).trans (State.setBridge_steady ..)).trans (State.clearMisses_steady _ _)).trans
      (State.missTestOn_steady _ _)
  | uncertain => exact (State.issue_steady ..).trans (State.chargeMiss_steady _ _)
  | incomplete => exact ((State.setEntry_steady ..).trans (State.chargeMiss_steady _ _)).trans (State.missTestOn_steady _ _)

theorem State.returnEntry_steady (piece : Word) (s : State) : s.Steady (s.returnEntry piece) :=
  (State.setEntry_steady ..).trans (State.missTestOn_steady _ _)

theorem State.pollBusy_steady (b : Fin 4) (t : Byte) (p : Word) (k : StatusKind) (code tag : Byte) (s : State) :
    s.Steady (s.pollBusy b t p k code tag) := by
  have returned : ∀ st, s.Steady ((s.endBusy b st).returnEntry p) := fun st =>
    (State.endBusy_steady b st s).trans (State.returnEntry_steady _ _)
  cases k with
  | cutting =>
    unfold State.pollBusy
    dsimp only
    split
    · exact .refl s
    · exact returned _
  | done =>
    unfold State.pollBusy
    dsimp only
    split
    · split
      · exact (State.endBusy_steady ..).trans (State.entryOutcome_steady ..)
      · exact State.endBusy_steady ..
    · exact returned _
  | ready => exact returned _
  | fault =>
    have ended := (State.onBridge_steady b (fun x => { x with faultCode := code }) s).trans (State.endBusy_steady b .fault _)
    unfold State.pollBusy
    dsimp only
    generalize (s.onBridge b fun x => { x with faultCode := code }).endBusy b .fault = u at ended ⊢
    generalize hv : (if (u.bridge b).state = .fault then u.bridgeFaulted b else u) = v
    have faulted : s.Steady v := by
      rw [← hv]
      split
      · exact ended.trans (State.bridgeFaulted_steady _ _)
      · exact ended
    split
    · split
      · exact faulted.trans (State.entryOutcome_steady ..)
      · exact faulted
    · exact faulted.trans (State.returnEntry_steady _ _)

theorem State.pollFree_steady (b : Fin 4) (k : StatusKind) (code : Byte) (s : State) : s.Steady (s.pollFree b k code) := by
  cases k with
  | ready => exact State.setBridge_steady ..
  | done => exact State.setBridge_steady ..
  | cutting => exact State.setBridge_steady ..
  | fault =>
    have faulted := State.onBridge_steady b (fun x => { x with state := .fault, faultCode := code }) s
    unfold State.pollFree
    dsimp only
    split
    · exact faulted
    · exact faulted.trans (State.bridgeFaulted_steady _ _)

theorem State.pollGood_steady (b : Fin 4) (k : StatusKind) (status tag : Byte) (s : State) :
    s.Steady (s.pollGood b k status tag) := by
  refine (State.onBridge_steady b (fun x => { x with lastStatus := status, lastTag := tag, misses := 0 }) s).trans ?_
  unfold State.pollGood
  dsimp only
  generalize State.onBridge b _ s = u
  split
  · exact State.pollBusy_steady ..
  · exact .refl u
  · exact State.pollFree_steady ..
  · exact State.pollFree_steady ..
  · exact State.pollFree_steady ..
  · exact State.pollFree_steady ..

theorem State.pollEnds_steady (b : Fin 4) (status tag check : Byte) (s : State) :
    s.Steady (s.pollEnds b status tag check) := by
  unfold State.pollEnds
  split
  · exact State.pollGood_steady ..
  · exact State.chargeMiss_steady ..

theorem State.polled_steady (b : Fin 4) (s : State) : s.Steady (s.polled b) := .cdu _ (Nat.le_refl _)

/-! ### Abandonment, STUCK and the reset -/

theorem State.enterStuck_steady (s : State) : s.Steady s.enterStuck := by
  have stuck : s.Steady
      { s with
        cdu.bridges := Vector.ofFn fun b : Fin 4 => (s.bridge b).atStuck (s.cdu.mask.getLsbD b.val)
        cdu.engine := .stuck, cdu.loopPos := 0, cdu.gapRunning := false, cdu.lckHeld := true } := .cdu _ (Nat.le_refl _)
  exact ((stuck.trans (.foldl (State.entryOutcome_steady _) _ _)).trans (State.raise_steady _ _)).trans
    (State.takeLink_steady _)

theorem State.abandon_steady (point : AbandonPoint) (s : State) : s.Steady (s.abandon point) := by
  unfold State.abandon
  split
  · exact (State.chargeMiss_steady _ s).trans (State.polled_steady _ _)
  · cases point with
    | beforeCheck => exact State.cutEnds_steady ..
    | afterCheck => exact State.cutEnds_steady ..
  · exact .refl s

theorem State.resetDispatch_steady (s : State) : s.Steady s.resetDispatch := by
  have abandoned := State.Steady.foldl (State.entryOutcome_steady .abandoned) s.cdu.queue s
  unfold State.resetDispatch
  dsimp only
  generalize s.cdu.queue.foldl (State.entryOutcome .abandoned) s = u at abandoned ⊢
  have emptied : u.Steady
      { u with
        cdu.queue := []
        cdu.bridges := Vector.ofFn fun b : Fin 4 => (u.bridge b).atReset (u.cdu.mask.getLsbD b.val)
        cdu.engine := .idle, cdu.loopPos := 0, cdu.gapRunning := false, cdu.gapTime := 0, cdu.gapLen := 0
        cdu.missTest := false, cdu.timeoutTest := false } := .cdu _ (Nat.zero_le _)
  exact ((abandoned.trans emptied).trans (State.takeLink_steady _)).trans (State.reviewEngine_steady _)

/-! ### The events of the link -/

theorem State.cutTransferEnd_steady (code check : Byte) (s : State) : s.Steady (s.cutTransferEnd code check) := by
  unfold State.cutTransferEnd
  split
  · split
    · exact (State.cutEnds_steady ..).trans (State.boundary_steady _)
    · exact .refl s
  · exact .refl s

theorem State.pollTransferEnd_steady (status tag check : Byte) (s : State) : s.Steady (s.pollTransferEnd status tag check) := by
  unfold State.pollTransferEnd
  split
  · split
    · exact ((State.pollEnds_steady ..).trans (State.polled_steady _ _)).trans (State.boundary_steady _)
    · exact .refl s
  · exact .refl s

theorem State.transferAbandon_steady (point : AbandonPoint) (lck : Lck) (s : State) :
    s.Steady (s.transferAbandon point lck) := by
  unfold State.transferAbandon
  split
  · exact .refl s
  · next sent _ =>
    have abandoned := State.abandon_steady (if s.transferBegun sent then point else .beforeCheck) s
    dsimp only
    generalize s.abandon _ = u at abandoned ⊢
    cases lck with
    | seenHigh =>
      have seen : u.Steady { u with cdu.lckHeld := false } := .cdu _ (Nat.le_refl _)
      exact (abandoned.trans seen).trans (State.boundary_steady _)
    | stillLow => exact abandoned.trans (State.enterStuck_steady u)

theorem State.stuckExit_steady (s : State) : s.Steady s.stuckExit := by
  unfold State.stuckExit
  split
  · exact State.Steady.trans (.cdu { s.cdu with lckHeld := false } (Nat.le_refl _)) (State.startRound_steady _)
  · exact .refl s

theorem State.linesSeenHigh_steady (s : State) : s.Steady s.linesSeenHigh := by
  unfold State.linesSeenHigh
  split
  · exact .cdu _ (Nat.le_refl _)
  · exact .refl s

theorem State.gapEnds_steady (s : State) : s.Steady s.gapEnds := by
  have elapsed : s.Steady { s with cdu.gapTime := s.cdu.gapLen } := .cdu _ (Nat.le_refl _)
  unfold State.gapEnds
  dsimp only
  split
  · split
    · exact elapsed.trans (State.chooseNext_steady _)
    · exact elapsed
  · exact .refl s

theorem State.missEvent_steady (s : State) : s.Steady s.missEvent :=
  State.Steady.trans (.cdu { s.cdu with missTest := false } (Nat.le_refl _)) (State.missTestAll_steady _)

theorem State.timeoutEvent_steady (s : State) : s.Steady s.timeoutEvent :=
  (State.Steady.trans (.cdu { s.cdu with timeoutTest := false } (Nat.le_refl _)) (State.timeoutTestAll_steady _)).trans
    (State.reviewEngine_steady _)

theorem State.dueEvent_steady (s : State) : s.Steady s.dueEvent := by
  unfold State.dueEvent
  split
  · split
    · exact State.startCut_steady ..
    · exact .refl s
  · exact .refl s

theorem State.linkPeriod_steady (s : State) : s.Steady s.linkPeriod := by
  unfold State.linkPeriod
  split <;> exact .cdu _ (Nat.le_refl _)

/-! ### The shift timer -/

theorem State.restartTimer_steady (s : State) : s.Steady s.restartTimer := .sac _

theorem State.stopTimer_steady (s : State) : s.Steady s.stopTimer := .sac _

theorem State.closeShift_steady (reason : ShiftReason) (s : State) : s.Steady (s.closeShift reason) :=
  (State.Steady.trans (.sac { s.sac with
      counters := ShiftCounters.zero, number := nextSequence s.sac.number, startPos := s.lcu.counter, openReason := reason })
    (State.produce_steady _ _ _)).trans (State.raise_steady _ _)

theorem State.timerStep_steady (s : State) : s.Steady s.timerStep := by
  unfold State.timerStep
  split <;> exact .sac _

theorem State.tick_steady (s : State) : s.Steady s.tick := by
  have ticked : s.Steady { s with sac.prescaleCount := 0 } := .sac _
  unfold State.tick
  dsimp only
  split
  · split
    · exact (ticked.trans (.sac _)).trans (State.timerStep_steady _)
    · exact ticked.trans (.sac _)
  · exact ticked.trans (State.timerStep_steady _)

theorem State.shiftExpiry_steady (s : State) : s.Steady s.shiftExpiry := by
  unfold State.shiftExpiry
  dsimp only
  split
  · exact (State.closeShift_steady _ s).trans (State.restartTimer_steady _)
  · exact ((State.closeShift_steady _ s).trans (State.stopTimer_steady _)).trans (.sac _)

theorem State.endShift_steady (s : State) : s.Steady s.endShift := by
  unfold State.endShift
  dsimp only
  split
  · exact (State.closeShift_steady _ s).trans (State.restartTimer_steady _)
  · exact State.closeShift_steady _ s

theorem State.takeShift_steady (t : ShiftTable) (s : State) : s.Steady (s.takeShift t) := by
  have taken : s.Steady { s with sac.params := t } := .sac _
  unfold State.takeShift
  dsimp only
  split
  · exact taken.trans (State.restartTimer_steady _)
  · exact taken.trans (State.stopTimer_steady _)

theorem State.timerPeriod_steady (s : State) : s.Steady s.timerPeriod := by
  unfold State.timerPeriod
  split
  · split
    · exact State.tick_steady s
    · exact .sac _
  · exact .refl s

theorem State.refclk_steady (s : State) : s.Steady s.refclk := by
  have period := (State.timerPeriod_steady s).trans (State.linkPeriod_steady _)
  unfold State.refclk
  dsimp only
  split
  · exact period.trans (State.gapEnds_steady _)
  · exact period

end Sys2Proof.Machine
end

section
/-! PROOFS. The output channels are steady. Where an operation needs the channel at rest, what led to it is a step from a state
whose channels tell, and the lemma says so: `h.fetch`, `h.moveOn`. -/

namespace Sys2Proof.Machine

variable {s t : State}

/-! ### The channel's law -/

section
variable {c : Channel} {reads writes : Nat}

/-- A channel whose queue, counts, state and activity are as before keeps its law. -/
theorem Channel.Tells.frame (h : c.Tells reads writes) {d : Channel} (hq : d.queue = c.queue) (hp : d.produced = c.produced)
    (hw : d.written = c.written) (hd : d.dropped = c.dropped) (ha : d.activity = c.activity)
    (hs : c.state = .active → d.state = .active) : d.Tells reads writes where
  balance := by simpa only [Channel.balance, hq, hp, hw, hd] using h.balance
  head := hq ▸ ha ▸ h.head
  active ne := hs (h.active (ha ▸ ne))
  fetches := ha ▸ h.fetches
  writes := ha ▸ h.writes

/-- A channel without activity keeps its law in any state. -/
theorem Channel.Tells.rest (h : c.Tells reads writes) {d : Channel} (hq : d.queue = c.queue) (hp : d.produced = c.produced)
    (hw : d.written = c.written) (hd : d.dropped = c.dropped) (hc : c.activity = .none) (ha : d.activity = .none) :
    d.Tells reads writes where
  balance := by simpa only [Channel.balance, hq, hp, hw, hd] using h.balance
  head e := nomatch ha.symm.trans e
  active ne := absurd ha ne
  fetches := by simpa [hc, ha] using h.fetches
  writes := by simpa [hc, ha] using h.writes

/-- Only an ACTIVE channel has an activity. -/
theorem Channel.Tells.none_of_ne_active (h : c.Tells reads writes) (hs : c.state ≠ .active) : c.activity = .none :=
  Decidable.byContradiction fun ne => hs (h.active ne)

end

theorem State.Steady.activity_none (h : s.Steady t) {ch : Fin 3} (hs : (t.channel ch).state ≠ .active) :
    s.ChannelsTell → (t.channel ch).activity = .none :=
  fun tell => (h.channels tell ch).none_of_ne_active hs

/-! ### Placing and taking back a channel's request -/

/-- A channel without activity places its request and takes the activity that the request tells. -/
theorem State.Steady.thenPlace (h : s.Steady t) {ch : Fin 3} {f : Channel → Channel} {r : OwnRequest}
    (hq : (f (t.channel ch)).queue = (t.channel ch).queue)
    (hothers : ∀ k, k ≠ ch → r.purpose ≠ .descriptor k ∧ r.purpose ≠ .record k)
    (ht : s.ChannelsTell → (t.channel ch).Tells (t.tru.weightFor (.descriptor ch)) (t.tru.weightFor (.record ch)) →
      (f (t.channel ch)).Tells (t.tru.weightFor (.descriptor ch) + weightIn [r] (.descriptor ch))
        (t.tru.weightFor (.record ch) + weightIn [r] (.record ch))) :
    s.Steady ((t.onChannel ch f).place r) := by
  have kinds := State.place_weightFor r t
  refine h.requests (u := (t.place r).tru) rfl rfl rfl (Nat.le_refl _) (Nat.le_refl _) (fun hl => hq ▸ hl) (fun k hk => ?_) ?_
  · rw [kinds, kinds, weightIn_singleton_of_ne (hothers k hk).1, weightIn_singleton_of_ne (hothers k hk).2, Nat.add_zero, Nat.add_zero]
    exact ⟨rfl, rfl⟩
  · rw [kinds, kinds]
    exact ht

theorem State.Steady.fetch (h : s.Steady t) {ch : Fin 3} (ha : s.ChannelsTell → (t.channel ch).activity = .none)
    (hs : (t.channel ch).state = .active) : s.Steady (t.fetch ch) := by
  refine h.thenPlace rfl (fun k hk => ⟨fun e => hk ?_, fun e => nomatch e⟩) fun tell hc => ?_
  · exact (OwnPurpose.descriptor.inj e).symm
  · have none := ha tell
    exact
      { balance := hc.balance
        head := fun e => nomatch e
        active := fun _ => hs
        fetches := by simp [hc.fetches, none, weightIn_cons, OwnRequest.weight, OwnPurpose.kind]
        writes := by simp [hc.writes, none, weightIn_cons] }

theorem State.Steady.fetchUnlessPending (h : s.Steady t) {ch : Fin 3}
    (ha : s.ChannelsTell → (t.channel ch).activity = .none) (hs : (t.channel ch).state = .active) :
    s.Steady (t.fetchUnlessPending ch) := by
  unfold State.fetchUnlessPending
  split
  · exact h.fetch ha hs
  · exact h.thenChannel id fun _ _ _ hc => hc.frame rfl rfl rfl rfl rfl id

/-- What a restart makes of a channel before it fetches (R145). -/
def Channel.restarted (c : Channel) : Channel :=
  match c.restart with
  | some (table, auto) => { c with table := table, autoRestart := auto, restart := none, index := 0, state := .active }
  | none => { c with index := 0, state := .active }

theorem State.restart_eq (ch : Fin 3) (s : State) :
    s.restart ch = (s.onChannel ch Channel.restarted).fetchUnlessPending ch := rfl

theorem Channel.restarted_activity (c : Channel) : c.restarted.activity = c.activity := by
  unfold Channel.restarted
  split <;> rfl

theorem Channel.restarted_state (c : Channel) : c.restarted.state = .active := by
  unfold Channel.restarted
  split <;> rfl

theorem Channel.restarted_queue (c : Channel) : c.restarted.queue = c.queue := by
  unfold Channel.restarted
  split <;> rfl

theorem Channel.restarted_counts (c : Channel) :
    c.restarted.produced = c.produced ∧ c.restarted.written = c.written ∧ c.restarted.dropped = c.dropped := by
  unfold Channel.restarted
  split <;> exact ⟨rfl, rfl, rfl⟩

theorem State.Steady.restart (h : s.Steady t) {ch : Fin 3} (ha : s.ChannelsTell → (t.channel ch).activity = .none) :
    s.Steady (t.restart ch) := by
  rw [State.restart_eq]
  have changed : s.Steady (t.onChannel ch Channel.restarted) :=
    h.thenChannel (fun hl => (Channel.restarted_queue _).symm ▸ hl) fun _ _ _ hc => by
      obtain ⟨hp, hw, hd⟩ := (t.channel ch).restarted_counts
      exact hc.frame (Channel.restarted_queue _) hp hw hd (Channel.restarted_activity _) fun _ => Channel.restarted_state _
  refine changed.fetchUnlessPending (fun tell => ?_) ?_
  · rw [State.onChannel_channel_same, Channel.restarted_activity]
    exact ha tell
  · rw [State.onChannel_channel_same]
    exact Channel.restarted_state _

theorem State.Steady.moveOn (h : s.Steady t) {ch : Fin 3} (ha : s.ChannelsTell → (t.channel ch).activity = .none) :
    s.Steady (t.moveOn ch) := by
  have raised := h.trans (State.raise_steady (.chEol ch) t)
  have still : s.ChannelsTell → ((t.raise (.chEol ch)).channel ch).activity = .none := by simpa using ha
  unfold State.moveOn
  dsimp only
  split
  · split
    · exact raised.restart still
    · exact raised.thenChannel id fun tell _ _ hc => hc.rest rfl rfl rfl rfl (still tell) (still tell)
  · have stepped : s.Steady (t.onChannel ch fun c => { c with index := c.index + 1, state := .active }) :=
      h.thenChannel id fun _ _ _ hc => hc.frame rfl rfl rfl rfl rfl fun _ => rfl
    refine stepped.fetchUnlessPending (fun tell => ?_) ?_
    · rw [State.onChannel_channel_same]
      exact ha tell
    · rw [State.onChannel_channel_same]

theorem State.Steady.entryFilled (h : s.Steady t) {ch : Fin 3} (ha : s.ChannelsTell → (t.channel ch).activity = .none) :
    s.Steady (t.entryFilled ch) := by
  unfold State.entryFilled
  dsimp only
  generalize hu : (if (t.channel ch).flagSet = true then t.raise (.chFlag ch) else t) = u
  have flagged : s.Steady u ∧ (u.channel ch).activity = (t.channel ch).activity := by
    rw [← hu]
    split
    · exact ⟨h.trans (State.raise_steady _ t), by rw [State.raise_channel]⟩
    · exact ⟨h, rfl⟩
  obtain ⟨hu, same⟩ := flagged
  have still : s.ChannelsTell → (u.channel ch).activity = .none := fun tell => same.trans (ha tell)
  split
  · exact (hu.thenChannel id fun tell _ _ hc => hc.rest rfl rfl rfl rfl (still tell) (still tell)).trans
      (State.raise_steady _ _)
  · exact hu.moveOn still

/-! ### Record writes -/

theorem State.writeNext_steady (ch : Fin 3) (s : State) : s.Steady (s.writeNext ch) := by
  unfold State.writeNext
  dsimp only
  split
  · next e r rest _ hqueue =>
    split
    · next can =>
      obtain ⟨active, none, -, -⟩ := can
      refine (State.Steady.refl s).thenPlace rfl (fun k hk => ⟨nofun, fun e => hk ?_⟩) fun _ hc => ?_
      · exact (OwnPurpose.record.inj e).symm
      · exact
          { balance := hc.balance
            head := fun _ => by simp [hqueue]
            active := fun _ => active
            fetches := by simp [hc.fetches, none, weightIn_cons]
            writes := by simp [hc.writes, none, weightIn_cons, OwnRequest.weight, OwnPurpose.kind] }
    · exact .refl s
  · exact .refl s

theorem State.writeAll_steady (s : State) : s.Steady s.writeAll :=
  ((State.writeNext_steady 0 s).trans (State.writeNext_steady 1 _)).trans (State.writeNext_steady 2 _)

/-! ### TERMINATE and the pending operation -/

/-- What TERMINATE makes of a channel (R148). -/
def Channel.terminated (c : Channel) : Channel :=
  { c with
    queue := [], dropped := c.dropped + BitVec.ofNat 32 c.queue.length, state := .stopped, index := 0, entry := none
    remaining := 0, activity := .none, pendingOp := .none, restart := none }

theorem State.terminate_eq (ch : Fin 3) (s : State) :
    s.terminate ch = (s.onChannel ch Channel.terminated).count fun k =>
      { k with recordsDropped := bump k.recordsDropped ch (s.channel ch).queue.length } := by
  simp [State.terminate, State.discardRecords, State.onChannel, State.count, State.channel, Channel.terminated]

/-- Records that TERMINATE discards are dropped: the balance stays (R140, R148). -/
theorem Channel.balance_terminated (c : Channel) : c.terminated.balance = c.balance := by
  have cancel (p w d q : Word) : p - w - (d + q) - 0 = p - w - d - q := by grind
  exact cancel ..

theorem State.Steady.terminate (h : s.Steady t) {ch : Fin 3} (ha : s.ChannelsTell → (t.channel ch).activity = .none) :
    s.Steady (t.terminate ch) := by
  rw [State.terminate_eq]
  refine (h.thenChannel (fun _ => Nat.zero_le _) fun tell _ _ hc => ?_).trans (State.count_steady _ _)
  have none := ha tell
  exact
    { balance := (Channel.balance_terminated _).trans hc.balance
      head := fun e => nomatch e
      active := fun ne => absurd rfl ne
      fetches := by simp [hc.fetches, none, Channel.terminated]
      writes := by simp [hc.writes, none, Channel.terminated] }

theorem State.Steady.settlePending (h : s.Steady t) {ch : Fin 3}
    (ha : s.ChannelsTell → (t.channel ch).pendingOp ≠ .none → (t.channel ch).activity = .none) :
    s.Steady (t.settlePending ch) := by
  unfold State.settlePending
  split
  · exact h
  · next hp =>
    have none : s.ChannelsTell → (t.channel ch).activity = .none := fun tell => ha tell (by simp [hp])
    exact (h.thenChannel id fun tell _ _ hc => hc.rest rfl rfl rfl rfl (none tell) (none tell)).trans
      (State.completeWith_steady _ _ _)
  · next hp => exact (h.terminate fun tell => ha tell (by simp [hp])).trans (State.completeWith_steady _ _ _)

/-! ### Returns -/

/-- The oldest granted request leaves. -/
def State.popFlight (s : State) : State := { s with tru.flight := s.tru.flight.tail }

theorem State.outstanding_popFlight (s : State) : s.popFlight.tru.outstanding.length ≤ s.tru.outstanding.length := by
  unfold State.popFlight Tru.outstanding
  cases s.tru.flight with
  | nil => exact Nat.le_refl _
  | cons x rest => exact ((List.sublist_cons_self x rest).filterMap _).length_le

/-- What a granted request counts for a purpose. -/
def InFlight.weight (x : InFlight) (p : OwnPurpose) : Nat :=
  match x with
  | .own r => weightIn [r] p
  | .transit _ => 0

theorem State.weightFor_popFlight {x : InFlight} {rest : List InFlight} (hf : s.tru.flight = x :: rest) (p : OwnPurpose) :
    s.tru.weightFor p = x.weight p + s.popFlight.tru.weightFor p := by
  have cons : weightIn s.tru.ownFlight p = x.weight p + weightIn s.popFlight.tru.ownFlight p := by
    rw [Tru.ownFlight, Tru.ownFlight, State.popFlight, hf]
    cases x with
    | own r => exact weightIn_append [r] _ p
    | transit r => exact (Nat.zero_add _).symm
  rw [Tru.weightFor_eq, Tru.weightFor_eq, cons, State.popFlight]
  dsimp only
  omega

/-- A granted request that is no channel's leaves. -/
theorem State.popFlight_steady {x : InFlight} {rest : List InFlight} (hf : s.tru.flight = x :: rest)
    (hx : s.ChannelsTell → ∀ ch, x.weight (.descriptor ch) = 0 ∧ x.weight (.record ch) = 0) : s.Steady s.popFlight where
  porstLow := rfl
  ctlsel := rfl
  controlBase := rfl
  capacities h := { h with outstanding := Nat.le_trans s.outstanding_popFlight h.outstanding }
  tables h := { h with }
  slots h := { h with }
  channels h ch := by
    have := h ch
    rw [State.weightFor_popFlight hf, State.weightFor_popFlight hf, (hx h ch).1, (hx h ch).2, Nat.zero_add, Nat.zero_add] at this
    exact this
  counter := rfl
  answered := .of_eq rfl rfl
  fifo := rfl
  detect := rfl

/-- A granted request of a channel leaves, and the channel changes with it. -/
theorem State.Steady.popChannel {x : InFlight} {rest : List InFlight} (hf : s.tru.flight = x :: rest) {ch : Fin 3}
    {f : Channel → Channel}
    (hq : (s.channel ch).queue.length ≤ queueDepth ch → (f (s.channel ch)).queue.length ≤ queueDepth ch)
    (hothers : ∀ k, k ≠ ch → x.weight (.descriptor k) = 0 ∧ x.weight (.record k) = 0)
    (ht : ∀ reads writes, (s.channel ch).Tells (x.weight (.descriptor ch) + reads) (x.weight (.record ch) + writes) →
      (f (s.channel ch)).Tells reads writes) : s.Steady (s.popFlight.onChannel ch f) := by
  have kinds := State.weightFor_popFlight hf
  refine (State.Steady.refl s).requests (u := s.popFlight.tru) rfl rfl rfl (Nat.le_refl _) s.outstanding_popFlight hq
    (fun k hk => ?_) fun _ hc => ?_
  · rw [kinds, kinds, (hothers k hk).1, (hothers k hk).2, Nat.zero_add, Nat.zero_add]
    exact ⟨rfl, rfl⟩
  · rw [kinds, kinds] at hc
    exact ht _ _ hc

theorem OwnRequest.weight_pos (r : OwnRequest) : 0 < r.weight := by
  unfold OwnRequest.weight
  split <;> decide

/-- A channel with a descriptor read under way is FETCHING, and has no other request (R142). -/
theorem Channel.Tells.fetching {c : Channel} {n reads writes : Nat} (hn : 0 < n) (h : c.Tells (n + reads) writes) :
    c.activity = .fetching ∧ reads = 0 := by
  have fetches := h.fetches
  split at fetches
  · next ha => exact ⟨ha, by omega⟩
  · omega

/-- A channel with a record write under way is WRITING, and has no other request (R143). -/
theorem Channel.Tells.writing {c : Channel} {n reads writes : Nat} (hn : 0 < n) (h : c.Tells reads (n + writes)) :
    c.activity = .writing ∧ writes = 0 := by
  have held := h.writes
  split at held
  · next ha => exact ⟨ha, by omega⟩
  · omega

theorem State.descriptorReturn_steady {r : OwnRequest} {rest : List InFlight} {ch : Fin 3} (hf : s.tru.flight = .own r :: rest)
    (hr : r.purpose = .descriptor ch) (beat : List Byte) : s.Steady (s.popFlight.descriptorReturn ch beat) := by
  have returned : s.Steady (s.popFlight.onChannel ch fun c => { c with activity := .none }) := by
    refine .popChannel hf id (fun k hk => ?_) fun reads writes hc => ?_
    · simp only [InFlight.weight, weightIn_cons, hr, weightIn_nil]
      simp [Ne.symm hk]
    · simp only [InFlight.weight, weightIn_cons, hr, weightIn_nil] at hc
      simp only [if_true, Nat.add_zero] at hc
      obtain ⟨ha, rfl⟩ := hc.fetching r.weight_pos
      have := hc.writes
      exact
        { balance := hc.balance
          head := fun e => nomatch e
          active := fun ne => absurd rfl ne
          fetches := rfl
          writes := by simpa [ha] using this }
  have still : ((s.popFlight.onChannel ch fun c => { c with activity := .none }).channel ch).activity = .none := by
    rw [State.onChannel_channel_same]
  unfold State.descriptorReturn
  dsimp only
  generalize (s.popFlight.onChannel ch fun c => { c with activity := .none }) = u at returned still ⊢
  split
  · exact returned.settlePending fun _ _ => still
  · split
    · refine ((returned.thenChannel id fun _ _ _ hc => hc.rest rfl rfl rfl rfl still still).trans
        (State.raise_steady _ _)).settlePending fun _ _ => ?_
      rw [State.raise_channel, State.onChannel_channel_same]
      exact still
    · refine (returned.thenChannel id fun _ _ _ hc => hc.frame rfl rfl rfl rfl rfl id).settlePending fun _ _ => ?_
      rw [State.onChannel_channel_same]
      exact still

/-- A written record leaves the queue and is counted: the balance stays (R140, R144). -/
theorem Channel.balance_written (c : Channel) (hq : c.queue ≠ []) (n : Nat) (a : Activity) :
    { c with queue := c.queue.tail, written := c.written + 1, remaining := n, activity := a }.balance = c.balance := by
  have cancel (p w d q one : Word) : p - (w + one) - d - q = p - w - d - (q + one) := by grind
  have length : BitVec.ofNat 32 c.queue.length = BitVec.ofNat 32 c.queue.tail.length + 1 := by
    rw [← List.cons_head_tail hq, List.length_cons, BitVec.ofNat_add]
    rfl
  simp only [Channel.balance, length]
  exact cancel ..

/-- An operation that is pending keeps a fetch from beginning (R147, R148). -/
theorem State.fetchUnlessPending_channel {ch : Fin 3} (hp : (s.channel ch).pendingOp ≠ .none) :
    (s.fetchUnlessPending ch).channel ch = { s.channel ch with entry := none, remaining := 0 } := by
  rw [State.fetchUnlessPending, if_neg hp, State.onChannel_channel_same]

theorem State.fetchUnlessPending_pendingOp (ch : Fin 3) (s : State) :
    ((s.fetchUnlessPending ch).channel ch).pendingOp = (s.channel ch).pendingOp := by
  unfold State.fetchUnlessPending State.fetch
  split <;> simp

theorem State.restart_keeps (ch : Fin 3) (s : State) : ((s.restart ch).channel ch).pendingOp = (s.channel ch).pendingOp
    ∧ ((s.channel ch).pendingOp ≠ .none → ((s.restart ch).channel ch).activity = (s.channel ch).activity) := by
  have pending : (s.channel ch).restarted.pendingOp = (s.channel ch).pendingOp := by
    unfold Channel.restarted
    split <;> rfl
  rw [State.restart_eq, State.fetchUnlessPending_pendingOp, State.onChannel_channel_same]
  refine ⟨pending, fun hp => ?_⟩
  rw [State.fetchUnlessPending_channel (by rwa [State.onChannel_channel_same, pending]), State.onChannel_channel_same]
  exact Channel.restarted_activity _

theorem State.moveOn_keeps (ch : Fin 3) (s : State) : ((s.moveOn ch).channel ch).pendingOp = (s.channel ch).pendingOp
    ∧ ((s.channel ch).pendingOp ≠ .none → ((s.moveOn ch).channel ch).activity = (s.channel ch).activity) := by
  unfold State.moveOn
  dsimp only
  split
  · split
    · simpa using State.restart_keeps ch (s.raise (.chEol ch))
    · simp
  · refine ⟨by simp [State.fetchUnlessPending_pendingOp], fun hp => ?_⟩
    rw [State.fetchUnlessPending_channel (by simpa using hp), State.onChannel_channel_same]

/-- At an entry's end the pending operation waits on, and while one does no activity begins (R145, R147). -/
theorem State.entryFilled_keeps (ch : Fin 3) (s : State) :
    ((s.entryFilled ch).channel ch).pendingOp = (s.channel ch).pendingOp
      ∧ ((s.channel ch).pendingOp ≠ .none → ((s.entryFilled ch).channel ch).activity = (s.channel ch).activity) := by
  unfold State.entryFilled
  dsimp only
  generalize hu : (if (s.channel ch).flagSet = true then s.raise (.chFlag ch) else s) = u
  have same : u.channel ch = s.channel ch := by
    rw [← hu]
    split <;> simp
  rw [← same]
  split
  · simp
  · exact State.moveOn_keeps ch u

theorem State.recordWritten_steady {r : OwnRequest} {rest : List InFlight} {ch : Fin 3} (hf : s.tru.flight = .own r :: rest)
    (hr : r.purpose = .record ch) : s.Steady (s.popFlight.recordWritten ch) := by
  have returned : s.Steady (s.popFlight.onChannel ch fun c =>
      { c with queue := c.queue.tail, written := c.written + 1, remaining := c.remaining - 1, activity := .none }) := by
    refine .popChannel hf (fun h => ?_) (fun k hk => ?_) fun reads writes hc => ?_
    · rw [List.length_tail]
      exact Nat.le_trans (Nat.sub_le _ _) h
    · simp only [InFlight.weight, weightIn_cons, hr, weightIn_nil]
      simp [Ne.symm hk]
    · simp only [InFlight.weight, weightIn_cons, hr, weightIn_nil] at hc
      simp only [if_true, Nat.add_zero] at hc
      obtain ⟨ha, rfl⟩ := hc.writing r.weight_pos
      have := hc.fetches
      exact
        { balance := (Channel.balance_written _ (hc.head ha) _ _).trans hc.balance
          head := fun e => nomatch e
          active := fun ne => absurd rfl ne
          fetches := by simpa [ha] using this
          writes := rfl }
  unfold State.recordWritten
  dsimp only
  generalize hu : (s.popFlight.onChannel ch fun c => { c with
    queue := c.queue.tail, written := c.written + 1, remaining := c.remaining - 1, activity := .none }) = u at returned ⊢
  have still : (u.channel ch).activity = .none := by rw [← hu, State.onChannel_channel_same]
  split
  · refine (returned.entryFilled fun _ => still).settlePending fun _ hp => ?_
    obtain ⟨pending, quiet⟩ := State.entryFilled_keeps ch u
    rw [quiet (pending ▸ hp)]
    exact still
  · exact returned.settlePending fun _ _ => still

/-! ### Stop words and commands -/

theorem State.stopWordWritten_steady (ch : Fin 3) (s : State) : s.Steady (s.stopWordWritten ch) := by
  unfold State.stopWordWritten
  split
  · next held => exact (State.Steady.refl s).moveOn ((State.Steady.refl s).activity_none (by simp [held.1]))
  · exact .refl s

theorem State.channelStarted_steady (ch : Fin 3) (table : Nat) (auto : Bool) (s : State) :
    s.Steady (s.channelStarted ch table auto).1 := by
  have start : (s.channel ch).state ≠ .active → s.Steady ((s.onChannel ch fun c =>
      { c with table := table, autoRestart := auto, index := 0, restart := none, state := .active }).fetch ch) := fun hs => by
    have still := (State.Steady.refl s).activity_none hs
    refine State.Steady.fetch (.channel id fun _ _ hc => hc.frame rfl rfl rfl rfl rfl fun _ => rfl) (fun tell => ?_) ?_
    · rw [State.onChannel_channel_same]
      exact still tell
    · rw [State.onChannel_channel_same]
  have queue : s.Steady (s.onChannel ch fun c => { c with restart := some (table, auto) }) :=
    .channel id fun _ _ hc => hc.frame rfl rfl rfl rfl rfl id
  unfold State.channelStarted
  split
  · next h => exact start (by simp [h])
  · next h => exact start (by simp [h])
  · next h => exact start (by simp [h])
  · exact queue
  · exact queue
  · exact .refl s

/-- The own request is of channel `ch`. -/
def OwnRequest.mine (ch : Fin 3) (r : OwnRequest) : Bool := r.purpose == .descriptor ch || r.purpose == .record ch

theorem weightIn_filter_not_mine {ch : Fin 3} {p : OwnPurpose} (hp : p ≠ .descriptor ch ∧ p ≠ .record ch) (l : List OwnRequest) :
    weightIn (l.filter fun r => !r.mine ch) p = weightIn l p := by
  have same : ((l.filter fun r => !r.mine ch).filter fun r => decide (r.purpose = p)) = l.filter fun r => decide (r.purpose = p) := by
    rw [List.filter_filter]
    refine List.filter_congr fun r _ => ?_
    by_cases h : r.purpose = p <;> simp [OwnRequest.mine, h, hp]
  rw [weightIn_eq, weightIn_eq, same]

theorem weightIn_filter_mine {ch : Fin 3} {p : OwnPurpose} (hp : p = .descriptor ch ∨ p = .record ch) (l : List OwnRequest) :
    weightIn (l.filter fun r => !r.mine ch) p = 0 := by
  have none : ((l.filter fun r => !r.mine ch).filter fun r => decide (r.purpose = p)) = [] := by
    rw [List.filter_filter, List.filter_eq_nil_iff]
    intro r _
    rcases hp with rfl | rfl <;> simp +contextual [OwnRequest.mine]
  rw [weightIn_eq, none]
  rfl

theorem weightIn_of_mem {r : OwnRequest} {l : List OwnRequest} {p : OwnPurpose} (hr : r ∈ l) (hp : r.purpose = p) :
    0 < weightIn l p := by
  rw [weightIn_eq]
  exact Nat.add_pos_left (List.length_pos_of_mem (List.mem_filter.mpr ⟨hr, decide_eq_true hp⟩)) _

/-- The own requests of the transit unit without those of channel `ch` that wait for a place (R147). -/
def Tru.withdrawn (t : Tru) (ch : Fin 3) : Tru := { t with waiting := t.waiting.filter fun r => !r.mine ch }

theorem State.withdraw_eq (ch : Fin 3) (s : State) : s.withdraw ch =
    if s.tru.waiting.any (OwnRequest.mine ch) then
      { s with tru := s.tru.withdrawn ch }.onChannel ch fun c => { c with activity := .none }
    else s := rfl

theorem Tru.weightFor_withdrawn_of_ne (t : Tru) {ch : Fin 3} {p : OwnPurpose} (hp : p ≠ .descriptor ch ∧ p ≠ .record ch) :
    (t.withdrawn ch).weightFor p = t.weightFor p := by
  rw [Tru.weightFor_eq, Tru.weightFor_eq, Tru.withdrawn, weightIn_filter_not_mine hp]
  rfl

/-- The requests of a channel are those that waited and those that are left after a withdrawal. -/
theorem Tru.weightFor_withdrawn (t : Tru) {ch : Fin 3} {p : OwnPurpose} (hp : p = .descriptor ch ∨ p = .record ch) :
    t.weightFor p = weightIn t.waiting p + (t.withdrawn ch).weightFor p := by
  rw [Tru.weightFor_eq, Tru.weightFor_eq, Tru.withdrawn, weightIn_filter_mine hp, Tru.ownFlight, Tru.ownFlight]
  dsimp only
  omega

/-- A channel one of whose requests waits for a place has no other (R142, R143). -/
theorem Channel.Tells.withdrawn {c : Channel} {t : Tru} {ch : Fin 3} (hm : t.waiting.any (OwnRequest.mine ch) = true)
    (h : c.Tells (t.weightFor (.descriptor ch)) (t.weightFor (.record ch))) :
    (t.withdrawn ch).weightFor (.descriptor ch) = 0 ∧ (t.withdrawn ch).weightFor (.record ch) = 0 := by
  obtain ⟨r, hr, hmine⟩ := List.any_eq_true.mp hm
  rw [t.weightFor_withdrawn (.inl rfl), t.weightFor_withdrawn (.inr rfl)] at h
  simp only [OwnRequest.mine, Bool.or_eq_true, beq_iff_eq] at hmine
  rcases hmine with hp | hp
  · obtain ⟨ha, none⟩ := h.fetching (weightIn_of_mem hr hp)
    have writes := h.writes
    simp only [ha, reduceCtorEq, if_false] at writes
    exact ⟨none, (Nat.add_eq_zero_iff.mp writes).2⟩
  · obtain ⟨ha, none⟩ := h.writing (weightIn_of_mem hr hp)
    have fetches := h.fetches
    simp only [ha, reduceCtorEq, if_false] at fetches
    exact ⟨(Nat.add_eq_zero_iff.mp fetches).2, none⟩

theorem State.withdraw_steady (ch : Fin 3) (s : State) : s.Steady (s.withdraw ch) := by
  rw [State.withdraw_eq]
  split
  · next hm =>
    refine (State.Steady.refl s).requests rfl rfl rfl (Nat.le_refl _) (Nat.le_refl _) id (fun k hk => ?_) fun _ hc => ?_
    · exact ⟨s.tru.weightFor_withdrawn_of_ne (by simp [hk]), s.tru.weightFor_withdrawn_of_ne (by simp [hk])⟩
    · obtain ⟨reads, writes⟩ := hc.withdrawn hm
      exact
        { balance := hc.balance
          head := fun e => nomatch e
          active := fun ne => absurd rfl ne
          fetches := reads
          writes := writes }
  · exact .refl s

end Sys2Proof.Machine
end

section
/-! PROOFS. The command slots and the commands: what a beginning and a return keep. -/

namespace Sys2Proof.Machine

variable {s t : State}

/-! ### Slots -/

/-- The number of a RUNNING slot does not stand in the FIFO (R159). -/
theorem State.SlotsFollow.notMem_of_running (h : s.SlotsFollow) {n : Fin 8} (hn : (s.slot n).state = .running) :
    n ∉ s.csu.fifo := fun hq => nomatch (h.queued n hq).symm.trans hn

/-- A slot and the FIFO change together: of no running command, the slot's number stands in the new FIFO only if it is QUEUED. -/
theorem State.Orderly.moveSlot {n : Fin 8} {f : Slot → Slot} {fifo : List (Fin 8)}
    (hs : s.SlotsFollow → fifo.Nodup ∧ (n ∈ fifo → (f (s.slot n)).state = .queued) ∧ (∀ m ∈ fifo, m ≠ n → m ∈ s.csu.fifo)
      ∧ (s.slot n).state ≠ .running) : s.Orderly { s.onSlot n f with csu.fifo := fifo } where
  porstLow := rfl
  ctlsel := rfl
  controlBase := rfl
  capacities h := { h with }
  tables h := { h with }
  slots h := by
    obtain ⟨once, here, others, free⟩ := hs h
    refine ⟨once, fun m hm => ?_, fun r hr => ?_⟩
    · by_cases hk : m = n
      · subst hk
        exact (congrArg Slot.state (State.onSlot_slot_same s m f)).trans (here hm)
      · exact (congrArg Slot.state (State.onSlot_slot_ne s f hk)).trans (h.queued m (others m hm hk))
    · have ne : r.slot ≠ n := fun e => free (e ▸ h.running r hr)
      exact (congrArg Slot.state (State.onSlot_slot_ne s f ne)).trans (h.running r hr)
  channels h := h
  counter := rfl
  answered := .of_eq rfl rfl

/-- A slot changes, but not its state. -/
theorem State.onSlot_steady {n : Fin 8} {f : Slot → Slot} (hf : (f (s.slot n)).state = (s.slot n).state) :
    s.Steady (s.onSlot n f) := by
  have same : ∀ k, ((s.onSlot n f).slot k).state = (s.slot k).state := fun k => by
    by_cases hk : k = n
    · rw [hk, State.onSlot_slot_same, hf]
    · rw [State.onSlot_slot_ne s f hk]
  exact
    { toInner := (State.Inner.refl s).thenCommands rfl id fun _ hs =>
        ⟨hs.once, fun m hm => (same m).trans (hs.queued m hm), fun r hr => (same r.slot).trans (hs.running r hr)⟩
      detect := rfl }

theorem State.slotBeat_orderly (n : Fin 8) (data : List Byte) (enables : BitVec 32) (s : State) :
    s.Orderly (s.slotBeat n data enables) := by
  have merged := State.onSlot_steady (s := s) (n := n)
    (f := fun x => { x with copy := mergeCopy (s.slot n).copy data enables }) rfl
  unfold State.slotBeat
  dsimp only
  generalize State.onSlot n _ s = u at merged ⊢
  split
  · split
    · next free =>
      refine merged.toOrderly.trans (.moveSlot fun hs => ⟨?_, fun _ => rfl, fun m hm ne => ?_, by simp [free]⟩)
      · refine List.nodup_append.mpr ⟨hs.once, List.nodup_cons.mpr ⟨List.not_mem_nil, List.nodup_nil⟩, fun a ha b hb => ?_⟩
        rintro rfl
        rw [List.mem_singleton.mp hb] at ha
        exact nomatch free.symm.trans (hs.queued n ha)
      · simpa [ne] using hm
    · exact (merged.trans (State.onSlot_steady rfl)).toOrderly
    · exact (merged.trans (State.onSlot_steady rfl)).toOrderly
  · exact merged.toOrderly

theorem State.ackWritten_steady (word : Word) (enables : BitVec 4) (s : State) : s.Steady (s.ackWritten word enables) :=
  State.Steady.trans (.tru { s.tru with ackShadow := mergeWord s.tru.ackShadow word enables } rfl rfl rfl rfl rfl rfl rfl)
    (State.setCauses_steady _ _)

theorem State.enableWritten_steady (word : Word) (enables : BitVec 4) (s : State) : s.Steady (s.enableWritten word enables) :=
  .tru _ rfl rfl rfl rfl rfl rfl rfl

theorem State.stopWritten_steady (ch : Fin 3) (word : Word) (enables : BitVec 4) (s : State) :
    s.Steady (s.stopWritten ch word enables) := by
  unfold State.stopWritten
  split
  · exact .refl s
  · exact State.Steady.trans (.tru { s.tru with
        stopShadow := s.tru.stopShadow.set ch (mergeWord (s.stopWord ch) word enables) } rfl rfl rfl rfl rfl rfl rfl)
      (State.stopWordWritten_steady _ _)

theorem State.controlWordsBeat_steady (data : List Byte) (enables : BitVec 32) (s : State) :
    s.Steady (s.controlWordsBeat data enables) :=
  ((((State.ackWritten_steady ..).trans (State.enableWritten_steady ..)).trans (State.stopWritten_steady ..)).trans
    (State.stopWritten_steady ..)).trans (State.stopWritten_steady ..)

/-- A slot whose number has left the FIFO is RUNNING, and that number stands nowhere else in it (R158, R159). -/
theorem State.takeCommand_orderly {n : Fin 8} (h : s.csu.fifo.head? = some n) : s.Orderly (s.takeCommand n) := by
  obtain ⟨rest, hf⟩ := List.head?_eq_some_iff.mp h
  refine .moveSlot fun hs => ?_
  have once : n ∉ rest ∧ rest.Nodup := List.nodup_cons.mp (hf ▸ hs.once)
  have queued := hs.queued n (hf ▸ List.mem_cons_self)
  rw [hf, List.tail_cons]
  exact ⟨once.2, fun hn => absurd hn once.1, fun m hm _ => List.mem_cons_of_mem n hm, by simp [queued]⟩

theorem State.head_of_commandAtHead {row : Command → Bool} {n : Fin 8} (h : s.commandAtHead row = some n) :
    s.csu.fifo.head? = some n := by
  unfold State.commandAtHead at h
  split at h
  · exact nomatch h
  · next m rest hf =>
    split at h
    · rw [hf, List.head?_cons, Option.some.inj h]
    · exact nomatch h

@[simp] theorem State.takeCommand_slot_same (n : Fin 8) (s : State) :
    (s.takeCommand n).slot n = { s.slot n with state := .running } :=
  State.onSlot_slot_same s n fun x => { x with state := .running }

/-- A command's beginning is orderly if its body, on a state in which its slot is RUNNING, leaves the FIFO alone. -/
theorem State.begins_orderly {row : Command → Bool} {body : Fin 8 → Command → State → State}
    (h : ∀ n c (s : State), (s.slot n).state = .running → s.Inner (body n c s)) (s : State) : s.Orderly (s.begins row body) := by
  unfold State.begins
  split
  · next n hn =>
    exact (State.takeCommand_orderly (State.head_of_commandAtHead hn)).trans
      (h n _ _ (by simp)).toOrderly
  · exact .refl s

/-- The command of a RUNNING slot goes on running in a phase. -/
theorem State.runs_steady {n : Fin 8} {p : Phase} (hn : (s.slot n).state = .running) (hp : p.Canonical) :
    s.Steady (s.runs n p) where
  toInner := (State.Inner.refl s).thenCommands rfl
    (fun h r hr => by
      rcases List.mem_append.mp hr with hr | hr
      · exact h r hr
      · rw [List.mem_singleton.mp hr]
        exact hp)
    fun _ hs => ⟨hs.once, hs.queued, fun r hr => by
      rcases List.mem_append.mp hr with hr | hr
      · exact hs.running r hr
      · rw [List.mem_singleton.mp hr]
        exact hn⟩
  detect := rfl

/-- The phase holds tables that have been read. -/
def Phase.holdsTables : Phase → Bool
  | .tables .. => true
  | _ => false

/-- A phase that holds no tables holds no COLUMN table. -/
theorem Phase.canonical_of_not {p : Phase} (h : p.holdsTables = false) : p.Canonical := by
  rintro _ _ _ _ _ rfl
  exact nomatch h

/-! ### Inspection -/

theorem State.startLearning_steady (s : State) : s.Steady s.startLearning :=
  State.Steady.trans (.csu { s.csu with inspection := .learn } rfl rfl rfl)
    (.fdu { s.fdu with mode := .learn, learnCount := s.fdu.detect.learnLines } rfl (fun h => { h with }) fun h => { h with })

theorem State.startCapture_steady (s : State) : s.Steady s.startCapture := .lcu _ rfl fun h => { h with }

section
variable {n : Fin 8} (c : Command) (hn : (s.slot n).state = .running)
include hn

theorem beginStart_inner : s.Inner (beginStart n c s) := by
  unfold beginStart
  split
  · exact ((State.startCapture_steady s).trans (State.startLearning_steady _)).toInner.thenComplete _ _ fun h =>
      h.notMem_of_running hn
  · exact (State.Inner.refl s).thenComplete _ _ fun h => h.notMem_of_running hn

theorem beginRelearn_inner : s.Inner (beginRelearn n c s) := by
  unfold beginRelearn
  split
  · exact (State.startLearning_steady s).toInner.thenComplete _ _ fun h => h.notMem_of_running hn
  · exact (State.Inner.refl s).thenComplete _ _ fun h => h.notMem_of_running hn

end

/-- Ranges joining the gap list leave the command and status unit alone. -/
theorem State.foldl_addGap_csu {α : Type} (f : α → Gap) (l : List α) :
    ∀ s : State, (l.foldl (fun u a => u.addGap (f a)) s).csu = s.csu := by
  induction l with
  | nil => exact fun _ => rfl
  | cons a l ih => exact fun s => ih _

theorem State.stopCapture_csu (s : State) : s.stopCapture.csu = s.csu := by
  unfold State.stopCapture
  dsimp only
  rw [State.foldl_addGap_csu fun a : Assembly => stampRange a.stamp s.fdu.detect.ldiv,
    State.foldl_addGap_csu fun p => stampRange p s.fdu.detect.ldiv]

theorem beginStop_inner {n : Fin 8} (c : Command) (hn : (s.slot n).state = .running) : s.Inner (beginStop n c s) := by
  unfold beginStop
  split
  · have stopped := State.Steady.trans (.csu { s.csu with inspection := .stopping } rfl rfl rfl)
      (State.stopCapture_steady { s with csu.inspection := .stopping })
    have running : ({ s with csu.inspection := .stopping }.stopCapture.slot n).state = .running := by
      rw [State.slot, State.stopCapture_csu]
      exact hn
    exact (stopped.trans (State.runs_steady running (Phase.canonical_of_not rfl))).toInner.trans
      (State.endStoppingIfDrained_inner _)
  · exact (State.Inner.refl s).thenComplete _ _ fun h => h.notMem_of_running hn

/-! ### Tables -/

theorem State.placeReads_steady {p : OwnPurpose} (hp : p.notChannel = true) (addr beats : Nat) (s : State) :
    s.Steady (s.placeReads p addr beats) :=
  .foldl (fun _ _ => State.place_steady hp _) _ s

theorem State.takeFduTablesIfOff_inner (s : State) : s.Inner s.takeFduTablesIfOff := by
  unfold State.takeFduTablesIfOff
  split
  · exact State.takeFduTables_inner s
  · exact .refl s

theorem State.takePlannerTablesIfIdle_steady (s : State) : s.Steady s.takePlannerTablesIfIdle := by
  unfold State.takePlannerTablesIfIdle
  split
  · exact State.takePlannerTables_steady s
  · exact .refl s

/-- The flaw detection unit takes what is canonical if the tables were before what led here. -/
theorem State.Inner.thenFdu (h : s.Inner t) (f : Fdu) (hw : t.fdu.Within → f.Within)
    (hc : s.TablesCanonical → t.fdu.Canonical → f.Canonical) : s.Inner { t with fdu := f } where
  porstLow := h.porstLow
  ctlsel := h.ctlsel
  controlBase := h.controlBase
  capacities hs := { h.capacities hs with
    blobs := (hw (h.capacities hs).fduWithin).blobs, store := (hw (h.capacities hs).fduWithin).store }
  tables hs := { hc hs (h.tables hs).fduCanonical with read := (h.tables hs).read }
  slots hs := { h.slots hs with }
  channels := h.channels
  counter := h.counter
  answered := h.answered
  fifo := h.fifo

/-- Every COLUMN table of a load is canonical. -/
def ColumnsCanonical (good : List TableBody) : Prop := ∀ c, TableBody.column c ∈ good → Cells.wf maskedGain c = true

theorem State.Inner.thenStage (h : s.Inner t) (b : TableBody) (hb : s.TablesCanonical → ColumnsCanonical [b]) :
    s.Inner (t.stage b) := by
  cases b with
  | transit x =>
    exact h.trans ((State.Steady.tru { t.tru with params := x } rfl rfl rfl rfl rfl rfl rfl).trans
      (.csu { t.csu with refreshCount := 0 } rfl rfl rfl)).toInner
  | detect x => exact h.thenFdu _ (fun h => { h with }) fun _ h => { h with }
  | column x =>
    refine h.thenFdu _ (fun h => { h with }) fun hs hc => { hc with stagedColumns := ?_ }
    rintro _ ⟨⟩
    exact hb hs x List.mem_cons_self
  | cls x => exact h.thenFdu _ (fun h => { h with }) fun _ h => { h with }
  | grade x => exact h.trans (State.Steady.ppl _).toInner
  | product x => exact h.trans (State.Steady.ppl _).toInner
  | link x => exact h.trans (State.Steady.cdu { t.cdu with stagedLink := some x } (Nat.le_refl _)).toInner
  | shift x => exact h.trans (State.takeShift_steady x t).toInner

theorem State.Inner.thenStages (good : List TableBody) (hg : s.TablesCanonical → ColumnsCanonical good) :
    ∀ {t : State}, s.Inner t → s.Inner (good.foldl State.stage t) := by
  induction good with
  | nil => exact id
  | cons b good ih =>
    refine fun h => ih (fun hs c hc => hg hs c (List.mem_cons_of_mem b hc)) (h.thenStage b fun hs c hc => hg hs c ?_)
    rw [List.mem_singleton.mp hc]
    exact List.mem_cons_self

theorem State.stageAll_inner {good : List TableBody} (hg : s.TablesCanonical → ColumnsCanonical good) (n : Fin 8) :
    s.Inner (s.stageAll n good) :=
  (((((State.Inner.refl s).thenStages good hg).trans (State.takeFduTablesIfOff_inner _)).trans
    (State.takePlannerTablesIfIdle_steady _).toInner).trans (State.takeLinkIfBetween_steady _).toInner).trans
    (State.setPhase_steady (fun _ => Phase.canonical_of_not rfl) n).toInner

theorem State.readNextTable_inner {n : Fin 8} {good : List TableBody} (hn : s.SlotsFollow → n ∉ s.csu.fifo)
    (hg : s.TablesCanonical → ColumnsCanonical good) (index : Nat) (entries : List DirEntry) (refused : Option Nat) :
    s.Inner (s.readNextTable n index entries good refused) := by
  cases entries with
  | nil =>
    cases refused with
    | some i => exact (State.Inner.refl s).thenComplete _ _ hn
    | none => exact State.stageAll_inner hg n
  | cons e rest =>
    refine ((State.setPhase_steady (p := .tables index (e :: rest) [] good refused) (fun hs => ?_) n).trans
      (State.placeReads_steady rfl _ _ _)).toInner
    rintro _ _ _ _ _ ⟨⟩
    exact hg hs

theorem State.judgeDirectory_inner {n : Fin 8} (hn : s.SlotsFollow → n ∉ s.csu.fifo) (count : Nat) (data : List Byte) :
    s.Inner (s.judgeDirectory n count data) := by
  unfold State.judgeDirectory
  split
  · exact (State.Inner.refl s).thenComplete _ _ hn
  · split
    · exact (State.Inner.refl s).thenComplete _ _ hn
    · exact State.readNextTable_inner hn (fun _ _ h => absurd h List.not_mem_nil) _ _ _

theorem State.headerReturned_inner {n : Fin 8} (hn : s.SlotsFollow → n ∉ s.csu.fifo) (addr : Nat) (data : List Byte) :
    s.Inner (s.headerReturned n addr data) := by
  unfold State.headerReturned
  dsimp only
  split
  · exact (State.Inner.refl s).thenComplete _ _ hn
  · split
    · exact (State.Inner.refl s).thenComplete _ _ hn
    · exact ((State.setPhase_steady (s := s) (fun _ => Phase.canonical_of_not rfl) n).trans (State.place_steady rfl _)).toInner

/-- A COLUMN table that is read is canonical. -/
theorem readTable_column {control : Nat} {k : TableKind} {b : List Byte} {c : Cells Nat}
    (h : readTable control k b = some (.column c)) : Cells.wf maskedGain c = true := by
  unfold readTable at h
  split at h
  · exact nomatch h
  · cases k <;> simp at h
    rw [← h]
    exact readColumn_wf b

theorem State.tableReturned_inner {n : Fin 8} {good : List TableBody} (hn : s.SlotsFollow → n ∉ s.csu.fifo)
    (hg : s.TablesCanonical → ColumnsCanonical good) (index : Nat) (entries : List DirEntry) (bytes : List Byte)
    (refused : Option Nat) : s.Inner (s.tableReturned n index entries bytes good refused) := by
  unfold State.tableReturned
  split
  · exact .refl s
  · split
    · refine (State.setPhase_steady (fun hs => ?_) n).toInner
      rintro _ _ _ _ _ ⟨⟩
      exact hg hs
    · split
      · exact State.readNextTable_inner hn hg _ _ _
      · next b hb =>
        refine State.readNextTable_inner hn (fun hs c hc => ?_) _ _ _
        rcases List.mem_append.mp hc with hc | hc
        · exact hg hs c hc
        · exact readTable_column (List.mem_singleton.mp hc ▸ hb)

theorem State.tableReadReturn_inner (data : List Byte) (s : State) : s.Inner (s.tableReadReturn data) := by
  unfold State.tableReadReturn
  split
  · exact .refl s
  · next r hr =>
    have mem := List.mem_of_find?_eq_some hr
    have hn : s.SlotsFollow → r.slot ∉ s.csu.fifo := fun hs => hs.notMem_fifo mem
    split
    · exact State.headerReturned_inner hn _ _
    · exact State.judgeDirectory_inner hn _ _
    · next hp => exact State.tableReturned_inner hn (fun hs => hs.phase mem _ _ _ _ _ hp) _ _ _ _
    · exact .refl s

theorem beginLoadTables_inner {n : Fin 8} (c : Command) (hn : (s.slot n).state = .running) :
    s.Inner (beginLoadTables n c s) := by
  unfold beginLoadTables
  dsimp only
  split
  · exact (State.Inner.refl s).thenComplete _ _ fun h => h.notMem_of_running hn
  · exact ((State.runs_steady hn (Phase.canonical_of_not rfl)).trans (State.place_steady rfl _)).toInner

theorem State.completeTables_steady (s : State) : s.Steady s.completeTables := by
  unfold State.completeTables
  split
  · next n count h =>
    split
    · obtain ⟨r, hr, hp⟩ := List.exists_of_findSome?_eq_some h
      refine State.complete_steady _ _ fun hs => ?_
      split at hp
      · obtain ⟨rfl, -⟩ := Prod.mk.inj (Option.some.inj hp)
        exact hs.notMem_fifo hr
      · exact nomatch hp
    · exact .refl s
  · exact .refl s

theorem State.completeReference_steady (s : State) : s.Steady s.completeReference := by
  unfold State.completeReference
  split
  · exact State.completeWith_steady ..
  · exact .refl s

theorem State.completeLoads_steady (s : State) : s.Steady s.completeLoads :=
  (State.completeTables_steady s).trans (State.completeReference_steady _)

/-! ### The reference -/

theorem beginLoadReference_inner {n : Fin 8} (c : Command) (hn : (s.slot n).state = .running) :
    s.Inner (beginLoadReference n c s) := by
  unfold beginLoadReference
  dsimp only
  split
  · exact (State.Inner.refl s).thenComplete _ _ fun h => h.notMem_of_running hn
  · exact ((State.runs_steady hn (Phase.canonical_of_not rfl)).trans (State.placeReads_steady rfl _ _ _)).toInner

theorem State.referenceReturn_inner (data : List Byte) (s : State) : s.Inner (s.referenceReturn data) := by
  unfold State.referenceReturn
  split
  · exact .refl s
  · split
    · next bytes _ =>
      dsimp only
      split
      · exact (State.setPhase_steady (fun _ => Phase.canonical_of_not rfl) _).toInner
      · have staged : s.Inner { s with fdu.stagedReference := some (readReference (bytes ++ data)) } :=
          .fdu _ (fun h => { h with }) fun h => { h with
            stagedReference := fun _ e => Option.some.inj e ▸ readReference_wf _ }
        exact (staged.trans (State.takeFduTablesIfOff_inner _)).trans
          (State.setPhase_steady (fun _ => Phase.canonical_of_not rfl) _).toInner
    · exact .refl s

theorem beginSaveReference_inner {n : Fin 8} (c : Command) (hn : (s.slot n).state = .running) :
    s.Inner (beginSaveReference n c s) := by
  have saving := State.runs_steady (p := .saving 0) hn (Phase.canonical_of_not rfl)
  unfold beginSaveReference
  dsimp only
  split
  · exact (State.Inner.refl s).thenComplete _ _ fun h => h.notMem_of_running hn
  · split
    · exact (saving.trans (State.takeSnapshot_steady _ _)).toInner
    · exact saving.toInner.trans (.fdu _ (fun h => { h with }) fun h => { h with })

theorem State.snapshotWritten_steady (s : State) : s.Steady s.snapshotWritten := by
  unfold State.snapshotWritten
  split
  · exact .refl s
  · next n d h =>
    obtain ⟨r, hr, hp⟩ := List.exists_of_findSome?_eq_some h
    split
    · refine State.complete_steady _ _ fun hs => ?_
      split at hp
      · obtain ⟨rfl, -⟩ := Prod.mk.inj (Option.some.inj hp)
        exact hs.notMem_fifo hr
      · exact nomatch hp
    · exact State.setPhase_steady (fun _ => Phase.canonical_of_not rfl) _

/-! ### The other commands -/

theorem State.takeFree_steady (s : State) : s.Steady s.takeFree where
  porstLow := rfl
  ctlsel := rfl
  controlBase := rfl
  capacities h := { h with }
  tables h := { h with }
  slots h := { h with }
  channels h := h
  counter := rfl
  answered := .of_eq rfl rfl
  fifo := rfl
  detect := rfl

@[simp] theorem State.withdraw_slot (ch : Fin 3) (k : Fin 8) (s : State) : (s.withdraw ch).slot k = s.slot k := by
  rw [State.withdraw_eq]
  split <;> rfl

section
variable {n : Fin 8} (c : Command) (hn : (s.slot n).state = .running)
include hn

theorem beginEndShift_inner : s.Inner (beginEndShift n c s) :=
  (State.endShift_steady s).toInner.thenComplete _ _ fun h => h.notMem_of_running hn

theorem beginBadCommand_inner : s.Inner (beginBadCommand n c s) :=
  (State.Inner.refl s).thenComplete _ _ fun h => h.notMem_of_running hn

theorem beginStatusRefresh_inner : s.Inner (beginStatusRefresh n c s) :=
  ((State.runs_steady hn (Phase.canonical_of_not rfl)).trans (State.requestStatus_steady _)).toInner

theorem beginBridgeEnable_inner : s.Inner (beginBridgeEnable n c s) := by
  have masked : s.Steady { s with cdu.newMask := some (c.arg1.setWidth 4) } := .cdu _ (Nat.le_refl _)
  exact ((masked.trans (State.runs_steady hn (Phase.canonical_of_not rfl))).trans (State.takeLinkIfBetween_steady _)).toInner

theorem beginManualCut_inner : s.Inner (beginManualCut n c s) := by
  unfold beginManualCut
  dsimp only
  split
  · exact (State.takePlannerTables_steady s).toInner.thenComplete _ _ fun h => h.notMem_of_running hn
  · exact ((State.takePlannerTables_steady s).trans (State.manualCommit_steady _ _)).toInner.thenComplete _ _ fun h =>
      h.notMem_of_running hn

theorem beginChannel_inner (op : Nat) {body : Fin 3 → Fin 8 → Command → State → State}
    (hb : ∀ ch, s.Inner (body ch n c s)) : s.Inner (beginChannel op body n c s) := by
  unfold beginChannel
  dsimp only
  split
  · split
    · exact hb _
    · exact (State.Inner.refl s).thenComplete _ _ fun h => h.notMem_of_running hn
  · exact (State.takeFree_steady s).toInner.thenComplete _ _ fun h => h.notMem_of_running hn

theorem channelStartBody_inner (ch : Fin 3) : s.Inner (channelStartBody ch n c s) := by
  unfold channelStartBody
  dsimp only
  split
  · exact (State.Inner.refl s).thenComplete _ _ fun h => h.notMem_of_running hn
  · exact (State.channelStarted_steady ..).toInner.thenComplete _ _ fun h => h.notMem_of_running hn

theorem channelPauseBody_inner (ch : Fin 3) : s.Inner (channelPauseBody ch n c s) := by
  have withdrawn := State.withdraw_steady ch s
  unfold channelPauseBody
  dsimp only
  split
  · have running : ((s.withdraw ch).slot n).state = .running := by simpa using hn
    generalize s.withdraw ch = u at withdrawn running ⊢
    split
    · next none =>
      exact (withdrawn.thenChannel id fun _ _ _ hc => hc.rest rfl rfl rfl rfl none none).toInner.thenComplete _ _ fun h =>
        h.notMem_of_running hn
    · have pending := withdrawn.thenChannel (ch := ch) (f := fun c => { c with pendingOp := .pause }) id
        fun _ _ _ hc => hc.frame rfl rfl rfl rfl rfl id
      exact (pending.trans (State.runs_steady (by simpa using running) (Phase.canonical_of_not rfl))).toInner
  · exact (State.Inner.refl s).thenComplete _ _ fun h => h.notMem_of_running hn

theorem channelResumeBody_inner (ch : Fin 3) : s.Inner (channelResumeBody ch n c s) := by
  unfold channelResumeBody
  dsimp only
  split
  · next paused =>
    have still := (State.Steady.refl s).activity_none (ch := ch) (by simp [paused])
    have active : s.Steady (s.onChannel ch fun c => { c with state := .active }) :=
      .channel id fun _ _ hc => hc.frame rfl rfl rfl rfl rfl fun _ => rfl
    split
    · refine (active.fetch (fun tell => ?_) ?_).toInner.thenComplete _ _ fun h => h.notMem_of_running hn
      · rw [State.onChannel_channel_same]
        exact still tell
      · rw [State.onChannel_channel_same]
    · exact active.toInner.thenComplete _ _ fun h => h.notMem_of_running hn
  · exact (State.Inner.refl s).thenComplete _ _ fun h => h.notMem_of_running hn

theorem channelTerminateBody_inner (ch : Fin 3) : s.Inner (channelTerminateBody ch n c s) := by
  have withdrawn := State.withdraw_steady ch s
  have running : ((s.withdraw ch).slot n).state = .running := by simpa using hn
  unfold channelTerminateBody
  dsimp only
  generalize s.withdraw ch = u at withdrawn running ⊢
  split
  · next none =>
    exact (withdrawn.terminate fun _ => none).toInner.thenComplete _ _ fun h => h.notMem_of_running hn
  · have pending := withdrawn.thenChannel (ch := ch) (f := fun c => { c with pendingOp := .terminate }) id
      fun _ _ _ hc => hc.frame rfl rfl rfl rfl rfl id
    exact (pending.trans (State.runs_steady (by simpa using running) (Phase.canonical_of_not rfl))).toInner

end

theorem State.resetEngine_inner (s : State) : s.Inner s.resetEngine := by
  have off : s.Steady { s with csu.inspection := .off } := .csu _ rfl rfl rfl
  have detection : ∀ u : State, u.Steady u.resetDetection := fun u =>
    State.Steady.trans (.fdu { u.fdu with analysis := none, learnCount := 0, blobs := [], store := [] } rfl
      (fun _ => ⟨Nat.zero_le _, Nat.zero_le _⟩) fun h => { h with }) (State.takePendingSnapshot_steady _)
  exact (((((off.trans (State.resetCapture_steady _)).trans (detection _)).trans (State.plannerIdle_steady _)).trans
    (State.resetDispatch_steady _)).toInner).trans (State.takeFduTables_inner _)

theorem beginResetEngine_inner {n : Fin 8} (c : Command) (hn : (s.slot n).state = .running) :
    s.Inner (beginResetEngine n c s) :=
  (((State.resetEngine_inner s).trans (State.completeWith_steady _ _ _).toInner).trans
    (State.completeLoads_steady _).toInner).thenComplete _ _ fun h => h.notMem_of_running hn

end Sys2Proof.Machine
end

section
/-! PROOFS. The memory path, the close of an event, what is owed, and then every command: what a step keeps (O3 to O9). -/

namespace Sys2Proof.Machine

variable {s t : State}

/-! ### The transit queue -/

theorem map_req_onFirst (f : TransitEntry → Bool) {g : TransitEntry → TransitEntry} (hg : ∀ e, (g e).req = e.req)
    (l : List TransitEntry) : (onFirst f g l).map TransitEntry.req = l.map TransitEntry.req := by
  induction l with
  | nil => rfl
  | cons e l ih =>
    unfold onFirst
    split <;> simp [hg, ih]

/-- Entries of the transit queue change, their requests do not. -/
theorem State.Steady.transit (l : List TransitEntry) (h : l.map TransitEntry.req = s.tru.transit.map TransitEntry.req) :
    s.Steady { s with tru.transit := l } :=
  .tru _ h rfl rfl rfl rfl rfl rfl

theorem State.classifyCandidate_steady (s : State) : s.Steady s.classifyCandidate :=
  .transit _ (map_req_onFirst _ (fun e => by split <;> rfl) _)

theorem State.countHits_steady (n : Nat) (s : State) : s.Steady (s.countHits n) := by
  unfold State.countHits
  split
  · exact .refl s
  · exact ((State.Steady.tru { s.tru with hits := s.tru.hits + BitVec.ofNat 32 n } rfl rfl rfl rfl rfl rfl rfl).trans
      (State.count_steady _ _)).trans (State.raise_steady _ _)

theorem State.observe_orderly (s : State) (x : BeatClass × Nat × Beat) : s.Orderly (s.observe x) := by
  unfold State.observe
  split
  · exact .refl s
  · split
    · split
      · exact (State.imageBeat_inner _ _ _ s).toOrderly
      · exact .refl s
    · exact State.slotBeat_orderly _ _ _ s
    · exact (State.controlWordsBeat_steady _ _ s).toOrderly
    · exact .refl s
    · exact .refl s
    · exact .refl s
    · exact .refl s

/-- The transit candidate takes a state. -/
def State.candidateTakes (st : TransitState) (s : State) : State :=
  { s with tru.transit := onFirst TransitEntry.isPending (fun e => { e with state := st }) s.tru.transit }

theorem State.candidateTakes_steady (st : TransitState) (s : State) : s.Steady (s.candidateTakes st) :=
  .transit _ (map_req_onFirst _ (g := fun e => { e with state := st }) (fun _ => rfl) _)

/-- The candidate takes its new state and its hits are counted; then a write's beats are observed (R126, R129, R130). -/
theorem State.forward_eq (e : TransitEntry) (st : TransitState) (s : State) : s.forward e st =
    match e.req.kind with
    | .read => (s.candidateTakes st).countHits e.hits
    | .write => e.maskedBeats.foldl State.observe ((s.candidateTakes st).countHits e.hits) := rfl

theorem State.forwarded_steady (e : TransitEntry) (st : TransitState) (s : State) :
    s.Steady ((s.candidateTakes st).countHits e.hits) :=
  (State.candidateTakes_steady st s).trans (State.countHits_steady _ _)

theorem State.forward_orderly (e : TransitEntry) (st : TransitState) (s : State) : s.Orderly (s.forward e st) := by
  have forwarded := (State.forwarded_steady e st s).toOrderly
  rw [State.forward_eq]
  split
  · exact forwarded
  · exact forwarded.trans (.foldl State.observe_orderly _ _)

/-- No block sees the beats of a fully masked write (R126, R130). -/
theorem foldl_observe_of_masked (l : List (BeatClass × Nat × Beat)) (h : l.all (fun x => x.2.2.enables == 0) = true) :
    ∀ s : State, l.foldl State.observe s = s := by
  induction l with
  | nil => exact fun _ => rfl
  | cons x l ih =>
    intro s
    obtain ⟨hx, hl⟩ := (Bool.and_eq_true _ _).mp (List.all_cons ▸ h)
    have unseen : s.observe x = s := if_pos (by simpa using hx)
    rw [List.foldl_cons, unseen]
    exact ih hl s

theorem State.forward_of_masked {e : TransitEntry} (h : e.fullyMasked = true) (st : TransitState) (s : State) :
    s.forward e st = (s.candidateTakes st).countHits e.hits := by
  obtain ⟨-, masked⟩ := (Bool.and_eq_true _ _).mp h
  rw [State.forward_eq]
  split
  · rfl
  · exact foldl_observe_of_masked _ masked _

theorem State.answerUpstream_steady (s : State) : s.Steady s.answerUpstream where
  porstLow := rfl
  ctlsel := rfl
  controlBase := rfl
  capacities h := { h with
    transit := by
      rw [State.answerUpstream_transit]
      exact Nat.le_trans (List.dropWhile_sublist _).length_le h.transit }
  tables h := { h with }
  slots h := { h with }
  channels h := h
  counter := rfl
  answered := by
    refine ⟨s.tru.transit.findIdx fun e => !decide (e.state = .ready), ?_, ?_⟩
    · rw [State.answerUpstream_transit, ← List.map_drop, List.dropWhile_eq_drop_findIdx_not]
    · rw [State.answerUpstream_answers, ← List.map_take, List.takeWhile_eq_take_findIdx_not]
      simp [Function.comp_def]
  fifo := rfl
  detect := rfl

theorem State.forwardMasked_steady (s : State) : s.Steady s.forwardMasked := by
  unfold State.forwardMasked State.maskedCandidate
  split
  · next e he =>
    split at he
    · split at he
      · next masked =>
        obtain rfl := Option.some.inj he
        rw [State.forward_of_masked masked]
        exact (State.forwarded_steady ..).trans (State.answerUpstream_steady _)
      · exact nomatch he
    · exact nomatch he
  · exact .refl s

/-! ### Grants -/

theorem State.grantTransit_orderly (e : TransitEntry) (s : State) : s.Orderly (s.grantTransit e) := by
  have granted : ∀ share, s.Orderly { s with tru.flight := s.tru.flight ++ [InFlight.transit e.wire], tru.share := share } :=
    fun share =>
      { porstLow := rfl
        ctlsel := rfl
        controlBase := rfl
        capacities := fun h => { h with
          outstanding := by simpa [Tru.outstanding] using h.outstanding }
        tables := fun h => { h with }
        slots := fun h => { h with }
        channels := fun h ch => by
          have kinds : ∀ p, Tru.weightFor { s.tru with flight := s.tru.flight ++ [InFlight.transit e.wire], share := share } p
              = s.tru.weightFor p := fun p => by
            rw [Tru.weightFor_eq, Tru.weightFor_eq]
            simp [Tru.ownFlight]
          rw [kinds, kinds]
          exact h ch
        counter := rfl
        answered := .of_eq rfl rfl }
  exact (granted _).trans (State.forward_orderly ..)

/-- The own head goes into flight with the bytes of its grant (R132, R133). -/
def State.sendOwn (r : OwnRequest) (s : State) : State :=
  { s with
    tru.own := s.tru.own.tail, tru.flight := s.tru.flight ++ [InFlight.own { r with data := s.grantedData r }], tru.share := 0 }

theorem State.grantOwn_eq (r : OwnRequest) (s : State) : s.grantOwn r = (s.sendOwn r).statusGranted r.purpose := rfl

theorem State.sendOwn_steady {r : OwnRequest} {rest : List OwnRequest} (hr : s.tru.own = r :: rest)
    (hout : s.tru.outstanding.length ≤ 16 → (s.sendOwn r).tru.outstanding.length ≤ 16) : s.Steady (s.sendOwn r) where
  porstLow := rfl
  ctlsel := rfl
  controlBase := rfl
  capacities h := { h with
    own := by
      rw [State.sendOwn, List.length_tail]
      exact Nat.le_trans (Nat.sub_le _ _) h.own
    outstanding := hout h.outstanding }
  tables h := { h with }
  slots h := { h with }
  channels h ch := by
    have kinds : ∀ p, (s.sendOwn r).tru.weightFor p = s.tru.weightFor p := fun p => by
      have flight : (s.sendOwn r).tru.ownFlight = s.tru.ownFlight ++ [{ r with data := s.grantedData r }] := by
        simp [State.sendOwn, Tru.ownFlight]
      rw [Tru.weightFor_eq, Tru.weightFor_eq, flight, weightIn_append, weightIn_cons, weightIn_nil, State.sendOwn, hr, List.tail_cons,
        weightIn_cons]
      have same : OwnRequest.weight { r with data := s.grantedData r } = r.weight := rfl
      dsimp only at same ⊢
      rw [same]
      omega
    rw [kinds, kinds]
    exact h ch
  counter := rfl
  answered := .of_eq rfl rfl
  fifo := rfl
  detect := rfl

theorem State.statusGranted_steady (p : OwnPurpose) (s : State) : s.Steady (s.statusGranted p) := by
  unfold State.statusGranted
  split
  · exact State.Steady.trans (.csu { s.csu with statusWaiting := false } rfl rfl rfl) (State.completeWith_steady _ _ _)
  · exact .refl s

/-- A grant keeps the list of outstanding own writes within its capacity (R133). -/
theorem State.outstanding_sendOwn {r : OwnRequest} (he : s.eligible r = true) (h : s.tru.outstanding.length ≤ 16) :
    (s.sendOwn r).tru.outstanding.length ≤ 16 := by
  have capacity : outstandingCapacity = 16 := rfl
  have sent : (s.sendOwn r).tru.outstanding.length = s.tru.outstanding.length + if r.kind = .write then 1 else 0 := by
    cases hk : r.kind <;> simp [State.sendOwn, Tru.outstanding, hk]
  rw [sent]
  cases hk : r.kind with
  | read => simpa using h
  | write =>
    simp only [State.eligible, hk, decide_eq_true_eq] at he
    simp only [if_true]
    omega

theorem State.grantOwn_steady {r : OwnRequest} (h : s.ownReady = some r) : s.Steady (s.grantOwn r) := by
  unfold State.ownReady at h
  split at h
  · exact nomatch h
  · next head rest hown =>
    split at h
    · next he =>
      obtain rfl := Option.some.inj h
      rw [State.grantOwn_eq]
      exact (State.sendOwn_steady hown (State.outstanding_sendOwn he)).trans (State.statusGranted_steady _ _)
    · exact nomatch h

theorem State.grant_orderly (s : State) : s.Orderly s.grant := by
  unfold State.grant
  split
  · exact State.grantTransit_orderly ..
  · next h => exact (State.grantOwn_steady h).toOrderly
  · next h =>
    split
    · exact (State.grantOwn_steady h).toOrderly
    · exact State.grantTransit_orderly ..
  · exact .refl s

theorem State.placeWaiting_steady (s : State) : s.Steady s.placeWaiting := by
  unfold State.placeWaiting
  split
  · exact .refl s
  · next r rest hw =>
    split
    · next room =>
      exact
        { porstLow := rfl
          ctlsel := rfl
          controlBase := rfl
          capacities := fun h => { h with
            own := by
              have capacity : ownCapacity = 32 := rfl
              simp only [List.length_append, List.length_singleton]
              omega }
          tables := fun h => { h with }
          slots := fun h => { h with }
          channels := fun h ch => by
            have kinds : ∀ p, Tru.weightFor { s.tru with own := s.tru.own ++ [r], waiting := rest } p = s.tru.weightFor p :=
              fun p => by
                rw [Tru.weightFor_eq, Tru.weightFor_eq, hw, weightIn_append, weightIn_cons, weightIn_cons, weightIn_nil, Tru.ownFlight,
                  Tru.ownFlight, Nat.add_zero]
                dsimp only
                omega
            rw [kinds, kinds]
            exact h ch
          counter := rfl
          answered := .of_eq rfl rfl
          fifo := rfl
          detect := rfl }
    · exact .refl s

/-! ### Answers of memory -/

/-- The oldest granted request leaves and its answer acts, or nothing changes. -/
theorem State.answered_orderly {f : InFlight → Option (State → State)}
    (h : ∀ x rest g, s.tru.flight = x :: rest → f x = some g → s.Orderly (g s.popFlight)) : s.Orderly (s.answered f) := by
  unfold State.answered
  split
  · exact .refl s
  · next x rest hf =>
    split
    · next g hg =>
      have popped : { s with tru.flight := rest } = s.popFlight := by rw [State.popFlight, hf, List.tail_cons]
      rw [popped]
      exact h x rest g hf hg
    · exact .refl s

theorem State.transitAnswered_steady (data : List Byte) (s : State) : s.Steady (s.transitAnswered data) :=
  (State.Steady.transit _ (map_req_onFirst _
      (g := fun e => { e with state := .ready, answer := if e.req.kind = .read then data else [] }) (fun _ => rfl) _)).trans
    (State.answerUpstream_steady _)

theorem State.downstreamAnswer_orderly (data : List Byte) (s : State) : s.Orderly (s.downstreamAnswer data) := by
  refine State.answered_orderly fun x rest g hf hg => ?_
  cases x with
  | own r => exact nomatch hg
  | transit r =>
    dsimp only at hg
    split at hg
    · obtain rfl := Option.some.inj hg
      exact ((State.popFlight_steady hf fun _ _ => ⟨rfl, rfl⟩).trans (State.transitAnswered_steady _ _)).toOrderly
    · exact nomatch hg

/-- An own request that is granted and is no channel's leaves. -/
theorem State.popOwn_steady {r : OwnRequest} {rest : List InFlight} (hf : s.tru.flight = .own r :: rest)
    (hp : s.ChannelsTell → r.purpose.notChannel = true) : s.Steady s.popFlight :=
  State.popFlight_steady hf fun tell ch =>
    ⟨weightIn_singleton_of_ne (OwnPurpose.ne_descriptor (hp tell) ch), weightIn_singleton_of_ne (OwnPurpose.ne_record (hp tell) ch)⟩

theorem OwnRequest.kind_of_weight {r : OwnRequest} (h : r.weight ≤ 1) : r.kind = r.purpose.kind := by
  unfold OwnRequest.weight at h
  split at h
  · next same => exact same
  · omega

/-- In a part whose channels tell, a granted descriptor request is a read and a granted record request a write (R142, R143). -/
theorem State.ChannelsTell.kind_of_flight (h : s.ChannelsTell) {r : OwnRequest} {rest : List InFlight}
    (hf : s.tru.flight = .own r :: rest) (ch : Fin 3) :
    (r.purpose = .descriptor ch → r.kind = .read) ∧ (r.purpose = .record ch → r.kind = .write) := by
  have tells := h ch
  have reads := tells.fetches
  have writes := tells.writes
  rw [State.weightFor_popFlight hf, InFlight.weight, weightIn_cons, weightIn_nil] at reads writes
  constructor
  · intro hp
    rw [if_pos hp] at reads
    rw [OwnRequest.kind_of_weight (r := r) (by split at reads <;> omega), hp]
    rfl
  · intro hp
    rw [if_pos hp] at writes
    rw [OwnRequest.kind_of_weight (r := r) (by split at writes <;> omega), hp]
    rfl

theorem State.ownReadReturn_orderly (data : List Byte) (s : State) : s.Orderly (s.ownReadReturn data) := by
  refine State.answered_orderly fun x rest g hf hg => ?_
  cases x with
  | transit r => exact nomatch hg
  | own r =>
    dsimp only at hg
    split at hg
    · next read =>
      obtain rfl := Option.some.inj hg
      unfold State.ownReadReturned
      split
      · next hp => exact ((State.popOwn_steady hf fun _ => by rw [hp]; rfl).toInner.trans (State.tableReadReturn_inner _ _)).toOrderly
      · next hp => exact ((State.popOwn_steady hf fun _ => by rw [hp]; rfl).toInner.trans (State.referenceReturn_inner _ _)).toOrderly
      · next hp => exact (State.descriptorReturn_steady hf hp data).toOrderly
      · next hp => exact (State.popOwn_steady hf fun _ => by rw [hp]; rfl).toOrderly
      · next hp => exact (State.popOwn_steady hf fun _ => by rw [hp]; rfl).toOrderly
      · next hp => exact (State.popOwn_steady hf fun _ => by rw [hp]; rfl).toOrderly
      · next ch hp =>
        refine (State.popOwn_steady hf fun tell => ?_).toOrderly
        exact nomatch read.1.symm.trans ((tell.kind_of_flight hf ch).2 hp)
    · exact nomatch hg

theorem State.ownWriteCompletion_orderly (s : State) : s.Orderly s.ownWriteCompletion := by
  refine State.answered_orderly fun x rest g hf hg => ?_
  cases x with
  | transit r => exact nomatch hg
  | own r =>
    dsimp only at hg
    split at hg
    · next write =>
      obtain rfl := Option.some.inj hg
      unfold State.ownWriteCompleted
      split
      · next hp => exact ((State.popOwn_steady hf fun _ => by rw [hp]; rfl).trans (State.snapshotWritten_steady _)).toOrderly
      · next hp => exact (State.recordWritten_steady hf hp).toOrderly
      · next hp => exact (State.popOwn_steady hf fun _ => by rw [hp]; rfl).toOrderly
      · next hp => exact (State.popOwn_steady hf fun _ => by rw [hp]; rfl).toOrderly
      · next hp => exact (State.popOwn_steady hf fun _ => by rw [hp]; rfl).toOrderly
      · next hp => exact (State.popOwn_steady hf fun _ => by rw [hp]; rfl).toOrderly
      · next ch hp =>
        refine (State.popOwn_steady hf fun tell => ?_).toOrderly
        exact nomatch write.symm.trans ((tell.kind_of_flight hf ch).1 hp)
    · exact nomatch hg

/-! ### The close of an event and what is owed -/

theorem State.finish_steady (s : State) : s.Steady s.finish :=
  (((State.completeLoads_steady s).trans (State.writeAll_steady _)).trans (State.classifyCandidate_steady _)).trans
    (State.placeAll_steady _)

theorem State.ifOwed_steady {f : State → State} (hf : ∀ s : State, s.Steady (f s)) (owed : State → Bool) (s : State) :
    s.Steady (s.ifOwed owed f) := by
  unfold State.ifOwed State.event
  split
  · exact (hf s).trans (State.finish_steady _)
  · exact .refl s

theorem State.whileOwed_steady {f : State → State} (hf : ∀ s : State, s.Steady (f s)) (owed : State → Bool) (fuel : Nat) :
    ∀ s : State, s.Steady (s.whileOwed owed f fuel) := by
  induction fuel with
  | zero => exact .refl
  | succ fuel ih =>
    intro s
    unfold State.whileOwed
    split
    · exact ((hf s).trans (State.finish_steady _)).trans (ih _)
    · exact .refl s

theorem State.settleExpiry_steady (s : State) : s.Steady s.settleExpiry := State.ifOwed_steady State.expiry_steady _ s

theorem State.settleTests_steady (s : State) : s.Steady s.settleTests :=
  (State.ifOwed_steady State.missEvent_steady _ s).trans (State.ifOwed_steady State.timeoutEvent_steady _ _)

theorem State.settleDue_steady (s : State) : s.Steady s.settleDue := State.ifOwed_steady State.dueEvent_steady _ s

theorem State.settleDeadline_steady (s : State) : s.Steady s.settleDeadline := State.ifOwed_steady State.expiry_steady _ s

theorem State.settleShift_steady (s : State) : s.Steady s.settleShift := State.ifOwed_steady State.shiftExpiry_steady _ s

theorem State.settle_steady (s : State) : s.Steady s.settle :=
  (((((((((State.settleExpiry_steady s).trans (State.ifOwed_steady State.trigger_steady _ _)).trans
    (State.settleExpiry_steady _)).trans (State.settleTests_steady _)).trans (State.settleExpiry_steady _)).trans
    (State.settleDue_steady _)).trans (State.settleExpiry_steady _)).trans
    (State.whileOwed_steady State.forwardMasked_steady _ _ _)).trans
    (State.whileOwed_steady State.placeWaiting_steady _ _ _))

/-! ### Commands -/

theorem State.clearOutputs_lawful (s : State) : s.Lawful s.clearOutputs where
  porstLow := rfl
  ctlsel := rfl
  controlBase := rfl
  capacities h := { h with }
  tables h := { h with }
  slots h := { h with }
  channels h := h

/-- A slot command, from where everything owed has happened. -/
theorem State.beginning_orderly {row : Command → Bool} {body : Fin 8 → Command → State → State}
    (h : ∀ n c (s : State), (s.slot n).state = .running → s.Inner (body n c s)) (low : s.porstLow = false)
    (ht : beginning row body s = .next t) : s.clearOutputs.Orderly t := by
  obtain rfl := Host.Outcome.next.inj ht
  rw [State.commandState, low]
  exact ((State.settle_steady _).toOrderly.trans (State.begins_orderly h _)).trans (State.finish_steady _).toOrderly

theorem command_orderly {f : State → State} (h : ∀ s : State, s.Orderly (f s)) (low : s.porstLow = false)
    (ht : command f s = .next t) : s.clearOutputs.Orderly t := by
  obtain rfl := Host.Outcome.next.inj ht
  rw [State.commandState, low]
  exact ((State.settle_steady _).toOrderly.trans (h _)).trans (State.finish_steady _).toOrderly

theorem taken_orderly {owed : State → Bool} {f : State → State} (h : ∀ s : State, s.Steady (f s)) (low : s.porstLow = false)
    (ht : taken owed f s = .next t) : s.clearOutputs.Orderly t := by
  obtain rfl := Host.Outcome.next.inj ht
  rw [State.takenState, low]
  exact ((State.settleExpiry_steady _).trans (State.ifOwed_steady h _ _)).toOrderly

/-- What comes before a command that is conditional on the state: the condition fails, or the event happens. -/
theorem State.orderly_if {f : State → State} (h : ∀ s : State, s.Steady (f s)) (b : State → Bool) (s : State) :
    s.Orderly (if b s then f s else s) := by
  split
  · exact (h s).toOrderly
  · exact .refl s

/-- Every command but an edge, an arrival and the two of PORST_N is orderly once the outputs of the last one are withdrawn. -/
theorem exec_orderly {c : Instr} (low : s.porstLow = false) (he : ∀ e, c ≠ .encoderEdge e) (hu : ∀ r, c ≠ .upstreamRequest r)
    (hp : ∀ x, c ≠ .powerOnReset x) (hl : c ≠ .porstNLow) (ht : exec c s = .next t) : s.clearOutputs.Orderly t := by
  cases c with
  | powerOnReset x => exact absurd rfl (hp x)
  | porstNLow => exact absurd rfl hl
  | encoderEdge e => exact absurd rfl (he e)
  | upstreamRequest r => exact absurd rfl (hu r)
  | lineTrigger => exact taken_orderly State.trigger_steady low ht
  | deadlineExpiry => exact command_orderly (State.orderly_if State.expiry_steady _) low ht
  | entryDue =>
    rw [exec, execEntryDue, low] at ht
    obtain rfl := Host.Outcome.next.inj ht
    exact ((((State.settleExpiry_steady _).trans (State.settleTests_steady _)).trans (State.settleExpiry_steady _)).trans
      (State.settleDue_steady _)).toOrderly
  | entryMissed => exact taken_orderly State.missEvent_steady low ht
  | cutTimeout => exact taken_orderly State.timeoutEvent_steady low ht
  | millisecondTick =>
    rw [exec, execMillisecondTick, low] at ht
    obtain rfl := Host.Outcome.next.inj ht
    exact (((State.settle_steady _).trans (State.settleShift_steady _)).toOrderly.trans
      (State.orderly_if State.tick_steady (fun s => s.sac.running) _)).trans (State.finish_steady _).toOrderly
  | shiftTimerExpiry => exact command_orderly (State.orderly_if State.shiftExpiry_steady _) low ht
  | fullyMaskedForward => exact taken_orderly State.forwardMasked_steady low ht
  | downstreamGrant => exact command_orderly State.grant_orderly low ht
  | controlWindowWrite n data enables => exact command_orderly (State.slotBeat_orderly n data enables) low ht
  | acknowledgeWrite word enables => exact command_orderly (fun s => (State.ackWritten_steady word enables s).toOrderly) low ht
  | eventEnableWrite word enables => exact command_orderly (fun s => (State.enableWritten_steady word enables s).toOrderly) low ht
  | stopWordWrite ch word enables => exact command_orderly (fun s => (State.stopWritten_steady ch word enables s).toOrderly) low ht
  | downstreamAnswer data => exact command_orderly (State.downstreamAnswer_orderly data) low ht
  | ownRequestPlaced => exact taken_orderly State.placeWaiting_steady low ht
  | ownReadReturn data => exact command_orderly (State.ownReadReturn_orderly data) low ht
  | ownWriteCompletion => exact command_orderly State.ownWriteCompletion_orderly low ht
  | analysisEnd => exact command_orderly (fun s => (State.analysisEnds_inner s).toOrderly) low ht
  | start => exact State.beginning_orderly (fun _ c _ hn => beginStart_inner c hn) low ht
  | stop => exact State.beginning_orderly (fun _ c _ hn => beginStop_inner c hn) low ht
  | relearn => exact State.beginning_orderly (fun _ c _ hn => beginRelearn_inner c hn) low ht
  | loadTables => exact State.beginning_orderly (fun _ c _ hn => beginLoadTables_inner c hn) low ht
  | loadReference => exact State.beginning_orderly (fun _ c _ hn => beginLoadReference_inner c hn) low ht
  | saveReference => exact State.beginning_orderly (fun _ c _ hn => beginSaveReference_inner c hn) low ht
  | endShift => exact State.beginning_orderly (fun _ c _ hn => beginEndShift_inner c hn) low ht
  | channelStart =>
    exact State.beginning_orderly (fun _ c _ hn => beginChannel_inner c hn _ (channelStartBody_inner c hn)) low ht
  | channelPause =>
    exact State.beginning_orderly (fun _ c _ hn => beginChannel_inner c hn _ (channelPauseBody_inner c hn)) low ht
  | channelResume =>
    exact State.beginning_orderly (fun _ c _ hn => beginChannel_inner c hn _ (channelResumeBody_inner c hn)) low ht
  | channelTerminate =>
    exact State.beginning_orderly (fun _ c _ hn => beginChannel_inner c hn _ (channelTerminateBody_inner c hn)) low ht
  | bridgeEnable => exact State.beginning_orderly (fun _ c _ hn => beginBridgeEnable_inner c hn) low ht
  | manualCut => exact State.beginning_orderly (fun _ c _ hn => beginManualCut_inner c hn) low ht
  | statusRefresh => exact State.beginning_orderly (fun _ c _ hn => beginStatusRefresh_inner c hn) low ht
  | resetEngine => exact State.beginning_orderly (fun _ c _ hn => beginResetEngine_inner c hn) low ht
  | badCommand => exact State.beginning_orderly (fun _ c _ hn => beginBadCommand_inner c hn) low ht
  | cutTransferEnd code check => exact command_orderly (fun s => (State.cutTransferEnd_steady code check s).toOrderly) low ht
  | pollTransferEnd status tag check =>
    exact command_orderly (fun s => (State.pollTransferEnd_steady status tag check s).toOrderly) low ht
  | pollGapEnd => exact command_orderly (fun s => (State.gapEnds_steady s).toOrderly) low ht
  | transferAbandon point lck => exact command_orderly (fun s => (State.transferAbandon_steady point lck s).toOrderly) low ht
  | stuckExit => exact command_orderly (fun s => (State.stuckExit_steady s).toOrderly) low ht
  | linkLinesSeenHigh => exact command_orderly (fun s => (State.linesSeenHigh_steady s).toOrderly) low ht

/-! ### An edge and an arrival -/

theorem State.encoderEdge_lawful (e : Edge) (s : State) : s.Lawful (s.encoderEdge e) := by
  unfold State.encoderEdge
  split
  · exact
      { porstLow := rfl
        ctlsel := rfl
        controlBase := rfl
        capacities := fun h => { h with }
        tables := fun h => { h with }
        slots := fun h => { h with }
        channels := fun h => h }
  · exact .refl s

theorem State.encoderEdge_counter (e : Edge) (s : State) :
    (s.encoderEdge e).lcu.counter = if s.fdu.detect.encEdge.counts e then s.lcu.counter + 1 else s.lcu.counter := by
  unfold State.encoderEdge
  split <;> rfl

theorem State.encoderEdge_tru (e : Edge) (s : State) : (s.encoderEdge e).tru = s.tru := by
  unfold State.encoderEdge
  split <;> rfl

/-- What an edge finds: everything owed and a raised deadline expiry have been taken. -/
theorem State.beforeEdge_steady (s : State) : s.Steady (s.settle.settleDeadline).settle :=
  ((State.settle_steady s).trans (State.settleDeadline_steady _)).trans (State.settle_steady _)

theorem exec_encoderEdge (e : Edge) (low : s.porstLow = false) :
    exec (.encoderEdge e) s = .next (((s.clearOutputs.settle.settleDeadline).settle.encoderEdge e).finish) := by
  rw [exec, execEncoderEdge, low]
  rfl

theorem State.upstreamArrives_lawful (r : Request) (s : State) : s.Lawful (s.upstreamArrives r) := by
  unfold State.upstreamArrives
  split
  · next room =>
    exact
      { porstLow := rfl
        ctlsel := rfl
        controlBase := rfl
        capacities := fun h => { h with
          transit := by
            have capacity : transitCapacity = 8 := rfl
            have := room.2
            simp only [List.length_append, List.length_singleton]
            omega }
        tables := fun h => { h with }
        slots := fun h => { h with }
        channels := fun h => h }
  · exact .refl s

theorem State.upstreamArrives_lcu (r : Request) (s : State) : (s.upstreamArrives r).lcu = s.lcu := by
  unfold State.upstreamArrives
  split <;> rfl

theorem exec_upstreamRequest (r : Request) (low : s.porstLow = false) :
    exec (.upstreamRequest r) s = .next ((s.clearOutputs.settle.upstreamArrives r).finish) := by
  rw [exec, execUpstreamRequest, command, State.commandState, low]
  rfl

/-! ### Every command -/

/-- Every command but the two of PORST_N is lawful. -/
theorem exec_lawful {c : Instr} (hp : ∀ x, c ≠ .powerOnReset x) (hl : c ≠ .porstNLow) (ht : exec c s = .next t) :
    s.Lawful t := by
  cases low : s.porstLow with
  | true =>
    rw [exec_of_porstLow low hp hl] at ht
    exact Host.Outcome.next.inj ht ▸ .refl s
  | false =>
    refine s.clearOutputs_lawful.trans ?_
    by_cases he : ∃ e, c = .encoderEdge e
    · obtain ⟨e, rfl⟩ := he
      rw [exec_encoderEdge e low] at ht
      obtain rfl := Host.Outcome.next.inj ht
      exact ((State.beforeEdge_steady _).toLawful.trans (State.encoderEdge_lawful e _)).trans (State.finish_steady _).toLawful
    · by_cases hu : ∃ r, c = .upstreamRequest r
      · obtain ⟨r, rfl⟩ := hu
        rw [exec_upstreamRequest r low] at ht
        obtain rfl := Host.Outcome.next.inj ht
        exact ((State.settle_steady _).toLawful.trans (State.upstreamArrives_lawful r _)).trans (State.finish_steady _).toLawful
      · exact (exec_orderly low (not_exists.mp he) (not_exists.mp hu) hp hl ht).toLawful

theorem State.idle_lawful (s : State) : s.Lawful s.idle := by
  unfold State.idle
  split
  · exact .refl s
  · exact s.clearOutputs_lawful.trans ((((State.settle_steady _).trans (State.settleDeadline_steady _)).trans
      (State.settleShift_steady _)).trans ((State.refclk_steady _).trans (State.finish_steady _))).toLawful

/-- While PORST_N is low nothing happens between commands (R166). -/
theorem State.idle_of_porstLow (low : s.porstLow = true) : s.idle = s := if_pos low

/-- What every step keeps: an invariant that holds at power-on, that the fall of PORST_N keeps, and that lawful steps of a part whose
PORST_N is high keep. -/
theorem step_keeps {I : State → Prop}
    (frame : ∀ (s : State) (p : List Instr) (n : Nat), I s → I { s with pending := p, freeCount := n })
    (reset : ∀ x, I (State.powerOn x))
    (low : ∀ s : State, I s → I { s.clearOutputs with
      porstLow := true, tru.transit := [], tru.own := [], tru.waiting := [], tru.placing := [], tru.flight := [] })
    (lawful : ∀ s t : State, s.porstLow = false → s.Lawful t → I s → I t) (s t : State) (h : I s) (ht : step s = .next t) :
    I t := by
  unfold step at ht
  split at ht
  · obtain rfl := Host.Outcome.next.inj ht
    cases hlow : s.porstLow with
    | true => exact (State.idle_of_porstLow hlow).symm ▸ h
    | false => exact lawful _ _ hlow (State.idle_lawful s) h
  · next c rest _ =>
    have framed := frame s rest s.freeCount h
    generalize { s with pending := rest } = u at framed ht
    by_cases hp : ∃ x, c = .powerOnReset x
    · obtain ⟨x, rfl⟩ := hp
      obtain rfl := Host.Outcome.next.inj ht
      exact frame _ _ _ (reset x)
    · by_cases hl : c = .porstNLow
      · obtain rfl := hl
        obtain rfl := Host.Outcome.next.inj ht
        exact low _ framed
      · cases hlow : u.porstLow with
        | true =>
          rw [exec_of_porstLow hlow (not_exists.mp hp) hl] at ht
          exact Host.Outcome.next.inj ht ▸ framed
        | false => exact lawful _ _ hlow (exec_lawful (not_exists.mp hp) hl ht) framed

/-! ### The obligations -/

/-- Settles O3: every operation keeps the capacities (`State.Lawful`), and the two commands of PORST_N leave the queues empty or as they
were. -/
theorem capacitiesKept : Obligations.CapacitiesKept :=
  step_keeps (fun _ _ _ h => { h with }) (fun x => (invariantsHoldAtReset x).1)
    (fun _ h => { h with transit := Nat.zero_le _, own := Nat.zero_le _, outstanding := Nat.zero_le _ }) fun _ _ _ h => h.capacities

/-- Settles O4: every table that enters a place of a COLUMN table or a reference is written in canonical form (`State.Lawful`). -/
theorem tablesCanonicalKept : Obligations.TablesCanonicalKept :=
  step_keeps (fun _ _ _ h => { h with }) (fun x => (invariantsHoldAtReset x).2.1) (fun _ h => { h with }) fun _ _ _ h => h.tables

/-- Settles O5. -/
theorem slotsFollowKept : Obligations.SlotsFollowKept :=
  step_keeps (fun _ _ _ h => { h with }) (fun x => (invariantsHoldAtReset x).2.2.1) (fun _ h => { h with }) fun _ _ _ h => h.slots

/-- Settles O6: with PORST_N high the law is `State.ChannelsTell`, which lawful steps keep; at its fall the requests are gone. -/
theorem channelsBalanceKept : Obligations.ChannelsBalanceKept :=
  step_keeps (fun _ _ _ h => { h with }) (fun x => (invariantsHoldAtReset x).2.2.2)
    (fun _ h => { h with
      fetches := fun low => nomatch low
      writes := fun low => nomatch low
      fetchKind := fun _ _ hr => nomatch hr
      writeKind := fun _ _ hr => nomatch hr })
    fun _ _ low h hs =>
      (State.channelsBalance_iff (h.porstLow.trans low)).mpr (h.channels ((State.channelsBalance_iff low).mp hs))

/-- Settles O7: every operation answers in order (`State.Orderly`), from withdrawn outputs on, so the answers are all this command's. -/
theorem requestsAnsweredInOrder : Obligations.RequestsAnsweredInOrder := by
  intro c s t low hu hp hl ht
  by_cases he : ∃ e, c = .encoderEdge e
  · obtain ⟨e, rfl⟩ := he
    rw [exec_encoderEdge e low] at ht
    obtain rfl := Host.Outcome.next.inj ht
    have before := (State.beforeEdge_steady s.clearOutputs).answered
    have after := (State.finish_steady ((s.clearOutputs.settle.settleDeadline).settle.encoderEdge e)).answered
    rw [State.encoderEdge_tru] at after
    exact before.trans after
  · exact (exec_orderly low (not_exists.mp he) hu hp hl ht).answered

/-- Settles O8: every operation but the count of an edge keeps the counter, and what is taken before the edge keeps the DETECT table that
selects it (`State.Steady`). -/
theorem counterCountsEdges : Obligations.CounterCountsEdges := by
  refine ⟨fun e s t low ht => ?_, fun x s t ht => ?_, fun c s t he hp ht => ?_⟩
  · rw [exec_encoderEdge e low] at ht
    obtain rfl := Host.Outcome.next.inj ht
    have before := State.beforeEdge_steady s.clearOutputs
    rw [(State.finish_steady _).counter, State.encoderEdge_counter, before.detect, before.counter]
    rfl
  · exact Host.Outcome.next.inj ht ▸ rfl
  · by_cases hl : c = .porstNLow
    · obtain rfl := hl
      exact Host.Outcome.next.inj ht ▸ rfl
    · cases low : s.porstLow with
      | true =>
        rw [exec_of_porstLow low hp hl] at ht
        exact Host.Outcome.next.inj ht ▸ rfl
      | false =>
        by_cases hu : ∃ r, c = .upstreamRequest r
        · obtain ⟨r, rfl⟩ := hu
          rw [exec_upstreamRequest r low] at ht
          obtain rfl := Host.Outcome.next.inj ht
          rw [(State.finish_steady _).counter, State.upstreamArrives_lcu, (State.settle_steady _).counter]
          rfl
        · exact (exec_orderly low he (not_exists.mp hu) hp hl ht).counter

/-- Settles O9. -/
theorem controlWindowStays : Obligations.ControlWindowStays := by
  intro c s t hp ht
  by_cases hl : c = .porstNLow
  · obtain rfl := hl
    exact Host.Outcome.next.inj ht ▸ ⟨rfl, rfl⟩
  · exact ⟨(exec_lawful hp hl ht).controlBase, (exec_lawful hp hl ht).ctlsel⟩

end Sys2Proof.Machine
end

section
/-! PROOFS. A command on a state at rest is its own effect: the lemmas that every functional claim below begins with, and the claims that
need nothing else (O12, O36, O38, O39, O45). -/

namespace Sys2Proof.Machine

variable {s t : State}

/-! ### The frame of a command on a state at rest -/

/-- A settled state's command, closed. -/
theorem command_next {f : State → State} (h : s.settled = true) : command f s = .next (f s.clearOutputs).finish :=
  command_of_settled h

/-- A command that leaves a quiet state closed is its own effect. -/
theorem command_of_quiet {f : State → State} (hq : s.quiet = true) (hc : (f s.clearOutputs).closed = s.closed) :
    command f s = .next (f s.clearOutputs) := by
  obtain ⟨settled, closed⟩ := State.quiet_iff.mp hq
  rw [command_next settled, State.finish_of_closed (hc.trans closed)]

/-- A raised event is taken, if it is owed and no expiry is. -/
theorem taken_of_owed {owed : State → Bool} {f : State → State} (low : s.porstLow = false) (he : s.expiryOwed = false)
    (ho : owed s.clearOutputs = true) : taken owed f s = .next (f s.clearOutputs).finish := by
  have still : s.clearOutputs.settleExpiry = s.clearOutputs := State.ifOwed_of_not he
  rw [taken, State.takenState, low, if_neg Bool.false_ne_true, still, State.ifOwed_of_owed ho]
  rfl

/-- Nothing is left to close but the places of own requests (R132). -/
structure State.AtRest (s : State) : Prop where
  loads : s.noLoadDone = true
  writes : ∀ ch, s.canWrite ch = false
  candidate : s.candidateClassified = true

theorem State.closed_iff : s.closed = true ↔ s.AtRest ∧ s.tru.placing = [] := by
  simp only [State.closed, Bool.and_eq_true, Bool.not_eq_true', List.isEmpty_iff]
  constructor
  · rintro ⟨⟨⟨⟨⟨loads, w0⟩, w1⟩, w2⟩, candidate⟩, placing⟩
    refine ⟨⟨loads, fun ch => ?_, candidate⟩, placing⟩
    match ch with
    | 0 => exact w0
    | 1 => exact w1
    | 2 => exact w2
  · rintro ⟨⟨loads, writes, candidate⟩, placing⟩
    exact ⟨⟨⟨⟨⟨loads, writes 0⟩, writes 1⟩, writes 2⟩, candidate⟩, placing⟩

theorem State.AtRest.congr (h : s.AtRest) (hrun : t.csu.running = s.csu.running) (hstaged : t.nothingStaged = s.nothingStaged)
    (href : t.fdu.stagedReference = s.fdu.stagedReference) (hrou : t.rou = s.rou) (htransit : t.tru.transit = s.tru.transit) :
    t.AtRest := by
  refine ⟨?_, fun ch => ?_, ?_⟩
  · rw [← h.loads]
    simp only [State.noLoadDone, State.stagedLoad, State.runningWith, hrun, hstaged, href]
  · have same : t.channel ch = s.channel ch := congrArg (fun r : Vector Channel 3 => r[ch]) hrou
    rw [← h.writes ch, State.canWrite, State.canWrite, same]
  · rw [← h.candidate]
    simp only [State.candidateClassified, State.candidate, htransit]

/-- Of an event that leaves nothing else to close, own requests take their places. -/
theorem State.AtRest.finish (h : s.AtRest) : s.finish = s.placeAll := by
  rw [State.finish, State.completeLoads_of_noLoadDone h.loads, State.writeAll, State.writeNext_of_not (h.writes 0),
    State.writeNext_of_not (h.writes 1), State.writeNext_of_not (h.writes 2), State.classifyCandidate_of_classified h.candidate]

/-- Of an event that leaves nothing else to close, the transit candidate is classified. -/
theorem State.finish_of_unclassified (hl : s.noLoadDone = true) (hw : ∀ ch, s.canWrite ch = false) (hp : s.tru.placing = []) :
    s.finish = s.classifyCandidate := by
  rw [State.finish, State.completeLoads_of_noLoadDone hl, State.writeAll, State.writeNext_of_not (hw 0),
    State.writeNext_of_not (hw 1), State.writeNext_of_not (hw 2), State.placeAll_of_none (by exact hp)]

theorem State.atRest_clearOutputs (h : s.closed = true) : s.clearOutputs.AtRest :=
  (State.closed_iff.mp h).1.congr rfl rfl rfl rfl rfl

/-! ### The ribbon counter -/

/-- On a quiet state with no expiry raised an edge is its own effect, and the event is closed already. -/
theorem exec_encoderEdge_of_quiet (e : Edge) (hq : s.quiet = true) (hr : s.expiryRaised = false) :
    exec (.encoderEdge e) s = .next (s.clearOutputs.encoderEdge e) := by
  obtain ⟨settled, closed⟩ := State.quiet_iff.mp hq
  have still : s.clearOutputs.settle = s.clearOutputs := State.settle_clearOutputs settled
  have later : s.clearOutputs.settleDeadline = s.clearOutputs := State.ifOwed_of_not hr
  have after : (s.clearOutputs.encoderEdge e).closed = s.closed := by
    unfold State.encoderEdge
    split <;> rfl
  rw [exec_encoderEdge e (State.porstLow_of_settled settled), still, later, still, State.finish_of_closed (after.trans closed)]

theorem State.inspecting_iff (s : State) :
    s.inspecting = true ↔ s.csu.inspection = .learn ∨ s.csu.inspection = .run := by
  simp [State.inspecting]

/-- Settles O12. -/
theorem encoderEdgeStepsTheDivider : Obligations.EncoderEdgeStepsTheDivider := by
  intro e s hq hr
  rw [exec_encoderEdge_of_quiet e hq hr, State.encoderEdge]
  simp only [State.countEdge, State.inspecting_iff]
  rfl

/-! ### The link -/

/-- The lowest number of which `p` holds is found first. -/
theorem find?_finRange {n : Nat} {p : Fin n → Bool} {b : Fin n} (hb : p b = true) (hlow : ∀ c, c < b → p c = false) :
    (List.finRange n).find? p = some b := by
  refine List.find?_eq_some_iff_getElem.mpr ⟨hb, b, by simp, by simp, fun j hj => ?_⟩
  simpa using hlow ⟨j, by omega⟩ hj

/-- A round begins at the lowest bridge that is not DISABLED (R112). -/
theorem State.startRound_of_lowest {b : Fin 4} (hb : (s.bridge b).state ≠ .disabled)
    (hlow : ∀ c, c < b → (s.bridge c).state = .disabled) :
    s.startRound = { s with cdu.loopPos := 0, cdu.gapRunning := false, cdu.engine := .pollXfer b false } := by
  have next : State.nextVisit { s with cdu.loopPos := 0, cdu.gapRunning := false } = some b :=
    find?_finRange (Bool.and_eq_true_iff.mpr ⟨decide_eq_true (Nat.zero_le _), decide_eq_true hb⟩) fun c hc =>
      Bool.and_eq_false_imp.mpr fun _ => decide_eq_false (not_not_intro (hlow c hc))
  unfold State.startRound
  dsimp only
  rw [next]

/-- A bridge is not DISABLED: the engine has a round to run. -/
theorem State.allDisabled_of_enabled {b : Fin 4} (hb : (s.bridge b).state ≠ .disabled) : s.allDisabled = false := by
  have mem : s.bridge b ∈ s.cdu.bridges.toList := by simp [State.bridge]
  rw [State.allDisabled, List.any_eq_true.mpr ⟨_, mem, decide_eq_true hb⟩]
  rfl

/-- With the gap run out and no CUT transfer to start, the engine begins a round (R112, R113). -/
theorem State.chooseNext_of_gapOver {b : Fin 4} (hg : s.cdu.gapRunning = true) (ht : s.cdu.gapLen ≤ s.cdu.gapTime)
    (hc : s.cutReady = none) (hb : (s.bridge b).state ≠ .disabled) (hlow : ∀ c, c < b → (s.bridge c).state = .disabled) :
    s.chooseNext = { s with cdu.loopPos := 0, cdu.gapRunning := false, cdu.engine := .pollXfer b false } := by
  unfold State.chooseNext
  rw [State.allDisabled_of_enabled hb, if_neg Bool.false_ne_true]
  dsimp only
  rw [if_neg (by simp [hg] : ¬(s.cdu.gapRunning = false ∧ s.nextVisit = none)), hc]
  dsimp only
  rw [if_pos hg, if_pos ht, State.startRound_of_lowest hb hlow]

/-- Settles O36. -/
theorem newRound : Obligations.NewRound := by
  intro s b hq hb hlow
  constructor
  · intro he hg
    have ready : s.cutReady = none := by
      have owed := (State.settled_iff.mp (State.quiet_iff.mp hq).1).2.2.2.2.2.1
      simpa [State.dueOwed, he, Engine.inGap] using owed
    have ends : s.clearOutputs.gapEnds = { s.clearOutputs with
        cdu.gapTime := s.cdu.gapLen, cdu.gapRunning := false, cdu.loopPos := 0, cdu.engine := .pollXfer b false } := by
      have inGap : s.cdu.engine.inGap = true := by rw [he]; rfl
      exact (if_pos hg).trans ((if_pos inGap).trans (State.chooseNext_of_gapOver
        (s := { s.clearOutputs with cdu.gapTime := s.cdu.gapLen }) hg (Nat.le_refl _) ready hb hlow))
    rw [exec, execPollGapEnd, command_of_quiet hq (by rw [ends]; rfl), ends]
    rfl
  · intro he
    have left : s.clearOutputs.stuckExit = { s.clearOutputs with
        cdu.lckHeld := false, cdu.gapRunning := false, cdu.loopPos := 0, cdu.engine := .pollXfer b false } := by
      unfold State.stuckExit
      rw [State.clearOutputs_cdu, he]
      exact State.startRound_of_lowest (s := { s.clearOutputs with cdu.lckHeld := false }) hb hlow
    rw [exec, execStuckExit, command_of_quiet hq (by rw [left]; rfl), left]
    rfl

/-- Settles O38. -/
theorem delayedStart : Obligations.DelayedStart := by
  intro s hq
  constructor
  · intro b he
    have sent : s.clearOutputs.linesSeenHigh = { s.clearOutputs with cdu.lckHeld := false, cdu.engine := .pollXfer b true } := by
      simp [State.linesSeenHigh, he, Engine.startSent, Engine.sendStart]
    rw [exec, execLinkLinesSeenHigh, command_of_quiet hq (by rw [sent]; rfl), sent]
    rfl
  · intro b piece tag lane he
    have sent : s.clearOutputs.linesSeenHigh
        = { s.clearOutputs with cdu.lckHeld := false, cdu.engine := .cutXfer b piece tag lane true } := by
      simp [State.linesSeenHigh, he, Engine.startSent, Engine.sendStart]
    rw [exec, execLinkLinesSeenHigh, command_of_quiet hq (by rw [sent]; rfl), sent]
    rfl

/-! ### The memory path -/

/-- Settles O45. -/
theorem waitingRequestIsPlaced : Obligations.WaitingRequestIsPlaced := by
  intro s r rest low closed he hw hroom
  have owed : s.placeOwed = true := by
    rw [State.placeOwed, hw]
    exact decide_eq_true hroom
  have placed : s.clearOutputs.placeWaiting = { s.clearOutputs with tru.own := s.tru.own ++ [r], tru.waiting := rest } := by
    unfold State.placeWaiting
    rw [State.clearOutputs_tru_waiting, hw]
    exact if_pos hroom
  rw [exec, execOwnRequestPlaced, taken_of_owed low he owed, placed, State.finish_of_closed (by exact closed)]
  rfl

/-- Classifying a queue to which a PENDING request has been appended touches the new one alone, and only if it is the candidate (R128). -/
theorem onFirst_append {f : TransitEntry → Bool} {g : TransitEntry → TransitEntry} (l : List TransitEntry) (e : TransitEntry)
    (he : f e = true) : onFirst f g (l ++ [e]) = onFirst f g l ++ [if (l.find? f).isSome then e else g e] := by
  induction l with
  | nil => simp [onFirst, he]
  | cons a l ih =>
    by_cases ha : f a = true
    · simp [onFirst, ha]
    · simp [onFirst, ha, ih]

theorem State.onFirst_classify_append (h : s.candidateClassified = true) (r : Request) :
    onFirst TransitEntry.isPending
        (fun e => if e.classes.isNone then { e with classes := some (s.classify e.req) } else e)
        (s.tru.transit ++ [{ req := r, state := .pending, classes := none, answer := [] }]) =
      s.tru.transit
        ++ [{ req := r, state := .pending, classes := if s.candidate.isSome then none else some (s.classify r), answer := [] }] := by
  have before : onFirst TransitEntry.isPending
      (fun e => if e.classes.isNone then { e with classes := some (s.classify e.req) } else e) s.tru.transit = s.tru.transit :=
    congrArg (fun u : State => u.tru.transit) (State.classifyCandidate_of_classified h)
  rw [onFirst_append _ _ rfl, before, State.candidate]
  cases (s.tru.transit.find? TransitEntry.isPending).isSome <;> rfl

/-- Settles O39. -/
theorem upstreamRequestQueues : Obligations.UpstreamRequestQueues := by
  intro r s hq hr
  obtain ⟨settled, closed⟩ := State.quiet_iff.mp hq
  obtain ⟨rest, placing⟩ := State.closed_iff.mp closed
  refine ⟨fun hroom => ?_, fun hfull => ?_⟩
  · have arrived : s.clearOutputs.upstreamArrives r = { s.clearOutputs with
        tru.transit := s.tru.transit ++ [{ req := r, state := .pending, classes := none, answer := [] }] } :=
      if_pos ⟨hr, hroom⟩
    have classified : State.finish { s.clearOutputs with
          tru.transit := s.tru.transit ++ [{ req := r, state := .pending, classes := none, answer := [] }] } =
        { s.clearOutputs with
          tru.transit := s.tru.transit
            ++ [{ req := r, state := .pending, classes := if s.candidate.isSome then none else some (s.classify r), answer := [] }] } := by
      refine (State.finish_of_unclassified (by exact rest.loads) (by exact rest.writes) (by exact placing)).trans ?_
      exact congrArg (fun l => { s.clearOutputs with tru.transit := l }) (State.onFirst_classify_append rest.candidate r)
    rw [exec, execUpstreamRequest, command_next settled, arrived, classified]
    rfl
  · have full : s.clearOutputs.upstreamArrives r = s.clearOutputs := if_neg fun h => absurd h.2 (Nat.not_lt.mpr hfull)
    rw [exec, execUpstreamRequest, command_of_quiet hq (by rw [full]; rfl), full]
    rfl

end Sys2Proof.Machine
end

section
/-! PROOFS. The trigger (O13). -/

namespace Sys2Proof.Machine

variable {s t u : State}

/-! ### Losses -/

/-- From `s` to `t` only ranges have been lost (R17): the gap list, the counters and causes and what these place have changed. -/
structure State.OnlyLosses (s t : State) : Prop where
  lcu : t.lcu = { s.lcu with gaps := t.lcu.gaps }
  fdu : t.fdu = s.fdu
  ppl : t.ppl = s.ppl
  cdu : t.cdu = s.cdu
  rou : t.rou = s.rou
  transit : t.tru.transit = s.tru.transit
  flight : t.tru.flight = s.tru.flight
  csu : t.csu = { s.csu with causes := t.csu.causes, statusWaiting := t.csu.statusWaiting }

theorem State.OnlyLosses.refl (s : State) : s.OnlyLosses s := ⟨rfl, rfl, rfl, rfl, rfl, rfl, rfl, rfl⟩

theorem State.OnlyLosses.trans (h : s.OnlyLosses t) (h' : t.OnlyLosses u) : s.OnlyLosses u where
  lcu := by rw [h'.lcu, h.lcu]
  fdu := h'.fdu.trans h.fdu
  ppl := h'.ppl.trans h.ppl
  cdu := h'.cdu.trans h.cdu
  rou := h'.rou.trans h.rou
  transit := h'.transit.trans h.transit
  flight := h'.flight.trans h.flight
  csu := by rw [h'.csu, h.csu]

theorem State.requestStatus_csu (s : State) : s.requestStatus.csu = { s.csu with statusWaiting := true } := by
  unfold State.requestStatus
  split
  · next h => rw [← h]
  · rfl

theorem State.raise_csu (c : Cause) (s : State) :
    (s.raise c).csu = { s.csu with causes := (s.raise c).csu.causes, statusWaiting := (s.raise c).csu.statusWaiting } := by
  unfold State.raise State.setCauses
  split
  · rfl
  · rw [State.requestStatus_csu]

theorem State.addLoss_onlyLosses (c : LossCause) (g : Gap) (s : State) : s.OnlyLosses (s.addLoss c g) := by
  unfold State.addLoss
  split
  · exact .refl s
  · exact
      { lcu := by rw [State.addGap, State.raise_lcu]; rfl
        fdu := by simp
        ppl := by simp
        cdu := by simp
        rou := by simp
        transit := by simp
        flight := by simp
        csu := State.raise_csu _ _ }

theorem State.foldl_addLoss_onlyLosses (c : LossCause) (l : List Gap) (s : State) :
    s.OnlyLosses (l.foldl (fun u g => u.addLoss c g) s) :=
  foldl_related State.OnlyLosses.refl State.OnlyLosses.trans l s fun s g _ => State.addLoss_onlyLosses c g s

theorem State.foldl_addLoss_gaps (c : LossCause) (l : List Gap) :
    ∀ s : State, (l.foldl (fun u g => u.addLoss c g) s).lcu.gaps = l.foldl gapAdd s.lcu.gaps := by
  induction l with
  | nil => exact fun _ => rfl
  | cons g l ih =>
    intro s
    rw [List.foldl_cons, ih, State.addLoss_gaps]
    rfl

/-- A loss of a range that is not empty sets LINE_LOSS (R17). -/
theorem State.addLoss_lineLoss (c : LossCause) (g : Gap) (s : State) (h : g.length ≠ 0) :
    (s.addLoss c g).csu.causes.getLsbD 16 = true := by
  simp [State.addLoss, h, State.addGap, Cause.bit]

/-! ### The trigger -/

/-- The stamp that a trigger loses: the oldest of a full FIFO (R3). -/
def State.lostStamps (s : State) : List Gap :=
  (if s.lcu.fifo.length < 16 then [] else s.lcu.fifo.take 1).map fun p => { start := p, length := s.fdu.detect.ldiv }

/-- The FIFO after a trigger's stamp (R3). -/
def State.pushedFifo (s : State) (p : Pos) : List Pos :=
  (if s.lcu.fifo.length < 16 then s.lcu.fifo else s.lcu.fifo.tail) ++ [p]

/-- A stamp is pushed after the loss of the oldest one of a full FIFO (R3, R4). -/
theorem State.pushStamp_eq (p : Pos) (s : State) : s.pushStamp p =
    { s.lostStamps.foldl (fun u g => u.addLoss .triggerOverrun g) s with lcu.fifo := s.pushedFifo p } := by
  unfold State.pushStamp State.lostStamps State.pushedFifo
  split
  · next old rest h =>
    by_cases room : s.lcu.fifo.length < 16
    · rw [if_pos (show s.lcu.fifo.length < fifoCapacity from room), if_pos room, if_pos room]
      rfl
    · rw [if_neg (show ¬s.lcu.fifo.length < fifoCapacity from room), if_neg room, if_neg room, h]
      rfl
  · next h => simp [h]

/-- The start of the resume range that the first stamp disarms, if a piece is open (R13). -/
def State.resumeStart (s : State) : Option Pos :=
  if s.lcu.resumeArmed then s.ppl.piece.map fun p => if before p.start s.fdu.scan then s.fdu.scan else p.start else none

/-- The gap list after the resume range has been disarmed at `p` (R13). -/
def State.resumedGaps (s : State) (p : Pos) : List Gap :=
  match s.resumeStart with
  | some r => if before r p then gapAdd s.lcu.gaps { start := r, length := (p - r).toNat } else s.lcu.gaps
  | none => s.lcu.gaps

theorem State.disarmResume_eq (p : Pos) (s : State) :
    s.disarmResume p = { s with lcu.resumeArmed := false, lcu.gaps := s.resumedGaps p } := by
  unfold State.disarmResume State.resumedGaps State.resumeStart
  cases armed : s.lcu.resumeArmed with
  | false => rw [if_neg Bool.false_ne_true, if_neg Bool.false_ne_true, ← armed]
  | true =>
    rw [if_pos rfl, if_pos rfl]
    dsimp only
    cases piece : s.ppl.piece with
    | none => rfl
    | some o =>
      dsimp only [Option.map_some]
      rw [← laterOf]
      by_cases hb : before (laterOf o.start s.fdu.scan) p = true
      · rw [if_pos hb, if_pos hb]
        rfl
      · rw [if_neg hb, if_neg hb]

/-- What a trigger leaves before a piece may open (R2, R3, R13). -/
def State.triggered (s : State) : State :=
  (State.pushStamp s.lcu.counter { s with lcu.ltrig := true, lcu.divider := s.fdu.detect.ldiv }).disarmResume s.lcu.counter

theorem State.trigger_eq (s : State) : s.trigger = s.triggered.openAtStamp s.lcu.counter := rfl

/-- The losses of a trigger, with LTRIG and the divider written before them. -/
def State.triggerLosses (s : State) : State :=
  s.lostStamps.foldl (fun u g => u.addLoss .triggerOverrun g) { s with lcu.ltrig := true, lcu.divider := s.fdu.detect.ldiv }

theorem State.triggerLosses_onlyLosses (s : State) :
    State.OnlyLosses { s with lcu.ltrig := true, lcu.divider := s.fdu.detect.ldiv } s.triggerLosses :=
  State.foldl_addLoss_onlyLosses _ _ _

theorem State.triggerLosses_gaps (s : State) : s.triggerLosses.lcu.gaps = s.lostStamps.foldl gapAdd s.lcu.gaps :=
  State.foldl_addLoss_gaps _ _ _

theorem State.triggered_eq (s : State) : s.triggered = { s.triggerLosses with
    lcu.fifo := s.pushedFifo s.lcu.counter, lcu.resumeArmed := false
    lcu.gaps := s.triggerLosses.resumedGaps s.lcu.counter } := by
  rw [State.triggered, State.pushStamp_eq, State.disarmResume_eq]
  rfl

theorem State.triggerLosses_resumeStart (s : State) : s.triggerLosses.resumeStart = s.resumeStart := by
  have h := s.triggerLosses_onlyLosses
  rw [State.resumeStart, State.resumeStart, h.lcu, h.ppl, h.fdu]

/-- Opening a piece at a stamp changes the planner alone, and nothing that is staged. -/
theorem State.openAtStamp_eq (p : Pos) (s : State) : s.openAtStamp p =
    { s with ppl := (s.openAtStamp p).ppl } ∧ (s.openAtStamp p).nothingStaged = s.nothingStaged := by
  unfold State.openAtStamp
  split <;> exact ⟨rfl, rfl⟩

/-- What a trigger changes: LTRIG, the divider, the FIFO, the gap list, the resume range, the planner, and what losses change. -/
theorem State.trigger_eq_with (s : State) : s.trigger = { s.triggerLosses with
    lcu.fifo := s.pushedFifo s.lcu.counter, lcu.resumeArmed := false
    lcu.gaps := s.triggerLosses.resumedGaps s.lcu.counter, ppl := s.trigger.ppl } := by
  rw [State.trigger_eq, (State.openAtStamp_eq _ _).1, State.triggered_eq]

theorem State.trigger_nothingStaged (s : State) : s.trigger.nothingStaged = s.nothingStaged := by
  have h := s.triggerLosses_onlyLosses
  rw [State.trigger_eq, (State.openAtStamp_eq _ _).2, State.triggered_eq]
  simp only [State.nothingStaged, h.fdu, h.ppl, h.cdu]

theorem State.triggered_ppl (s : State) : s.triggered.ppl = s.ppl := by
  rw [State.triggered_eq]
  exact s.triggerLosses_onlyLosses.ppl

theorem State.triggered_deadlineOf (s : State) (p : Pos) : s.triggered.deadlineOf p = s.deadlineOf p := by
  have cdu : s.triggered.cdu = s.cdu := by
    rw [State.triggered_eq]
    exact s.triggerLosses_onlyLosses.cdu
  simp only [State.deadlineOf, State.firePos, State.triggered_ppl, cdu]

theorem State.triggered_counter (s : State) : s.triggered.lcu.counter = s.lcu.counter := by
  rw [State.triggered_eq]
  exact (congrArg Lcu.counter s.triggerLosses_onlyLosses.lcu :)

/-- An event after which own requests take their places, and nothing else. -/
theorem State.AtRest.trigger (h : s.AtRest) : s.trigger.AtRest := by
  have hl := s.triggerLosses_onlyLosses
  have eq := s.trigger_eq_with
  refine h.congr ?_ s.trigger_nothingStaged ?_ ?_ ?_
  · rw [eq, hl.csu]
  · rw [eq, hl.fdu]
  · rw [eq, hl.rou]
  · rw [eq, hl.transit]

/-- The trigger's part of the line capture unit (R2, R3, R13). -/
theorem State.trigger_lcu (s : State) : s.trigger.lcu =
    { s.lcu with
      ltrig := true, divider := s.fdu.detect.ldiv, fifo := s.pushedFifo s.lcu.counter, resumeArmed := false
      gaps := s.triggerLosses.resumedGaps s.lcu.counter } :=
  (congrArg State.lcu s.trigger_eq_with).trans
    (congrArg (fun l : Lcu => { l with
      fifo := s.pushedFifo s.lcu.counter, resumeArmed := false, gaps := s.triggerLosses.resumedGaps s.lcu.counter })
      s.triggerLosses_onlyLosses.lcu)

/-- A trigger opens the piece of an IDLE planner at its stamp (R78). -/
theorem State.trigger_ppl_of_idle (h : s.ppl.piece = none) :
    s.trigger.ppl.piece = some { start := s.lcu.counter, deadline := s.deadlineOf s.lcu.counter }
      ∧ s.trigger.expiryOwed = reaches (s.deadlineOf s.lcu.counter) s.lcu.counter := by
  have opened : s.trigger = s.triggered.openPiece s.lcu.counter false := by
    rw [State.trigger_eq, State.openAtStamp, State.triggered_ppl, h]
  have deadline := s.triggered_deadlineOf s.lcu.counter
  rw [opened, State.openPiece, State.armAt_piece, State.armAt_expiryOwed]
  exact ⟨congrArg (fun d => some (OpenPiece.mk s.lcu.counter d)) deadline,
    congr (congrArg reaches deadline) s.triggered_counter⟩

/-- A trigger leaves the planner as it is while a piece is open. -/
theorem State.trigger_ppl_of_open {p : OpenPiece} (h : s.ppl.piece = some p) :
    s.trigger.ppl = s.ppl ∧ s.trigger.expiryOwed = s.expiryOwed := by
  have same : s.trigger = s.triggered := by
    rw [State.trigger_eq, State.openAtStamp, State.triggered_ppl, h]
  rw [same, State.expiryOwed, State.expiryOwed, State.expiryRaised, State.expiryRaised, State.triggered_ppl,
    State.triggered_counter]
  exact ⟨rfl, rfl⟩

/-- A trigger that finds a place in the FIFO loses nothing (R3). -/
theorem State.triggerLosses_of_room (h : s.lcu.fifo.length < 16) :
    s.triggerLosses.sac = s.sac ∧ s.triggerLosses.csu = s.csu := by
  have none : s.lostStamps = [] := by rw [State.lostStamps, if_pos h, List.map_nil]
  rw [State.triggerLosses, none]
  exact ⟨rfl, rfl⟩

/-- A trigger on a full FIFO loses the oldest stamp as a trigger overrun (R3, R4). -/
theorem State.triggerLosses_of_full (h : 16 ≤ s.lcu.fifo.length) (hd : s.fdu.detect.ldiv ≠ 0) :
    s.triggerLosses.sac.counters.lost[0] = satAdd max32 s.sac.counters.lost[0] 1
      ∧ s.triggerLosses.sac.counters.lostLength[0] = satAdd max32 s.sac.counters.lostLength[0] s.fdu.detect.ldiv
      ∧ s.triggerLosses.csu.causes.getLsbD 16 = true := by
  obtain ⟨old, rest, hf⟩ := List.exists_cons_of_length_pos (Nat.lt_of_lt_of_le (by decide) h)
  have one : s.lostStamps = [{ start := old, length := s.fdu.detect.ldiv }] := by
    rw [State.lostStamps, if_neg (Nat.not_lt.mpr h), hf]
    rfl
  rw [State.triggerLosses, one, List.foldl_cons, List.foldl_nil]
  exact ⟨by rw [State.addLoss_counters _ _ _ hd]; simp [bump, LossCause.index],
    by rw [State.addLoss_counters _ _ _ hd]; simp [bump, LossCause.index], State.addLoss_lineLoss _ _ _ hd⟩

/-- Settles O13. -/
theorem lineTriggerPushesAStamp : Obligations.LineTriggerPushesAStamp := by
  intro s low closed he owed lost resume
  have lcu := s.clearOutputs.trigger_lcu
  have eq := s.clearOutputs.trigger_eq_with
  have hl := s.clearOutputs.triggerLosses_onlyLosses
  have gaps : s.clearOutputs.triggerLosses.lcu.gaps = lost.foldl gapAdd s.lcu.gaps := s.clearOutputs.triggerLosses_gaps
  have start : s.clearOutputs.triggerLosses.resumeStart = resume := s.clearOutputs.triggerLosses_resumeStart
  have finished := (State.atRest_clearOutputs closed).trigger.finish
  refine ⟨s.clearOutputs.trigger.placeAll, (taken_of_owed low he owed).trans (congrArg _ finished), congrArg Lcu.ltrig lcu,
    congrArg Lcu.divider lcu, congrArg Lcu.fifo lcu, fun hfull hd => ?_, fun hroom => ?_, congrArg Lcu.resumeArmed lcu,
    fun r hr hb => ?_, fun hb => ?_, State.trigger_ppl_of_idle (s := s.clearOutputs), fun p hp => ?_, (congrArg Lcu.counter lcu :),
    (congrArg Lcu.lastStamp lcu :), (congrArg Lcu.lineQueue lcu :), (congrArg Lcu.assembly lcu :), ?_⟩
  · have sac : s.clearOutputs.trigger.sac = s.clearOutputs.triggerLosses.sac := (congrArg State.sac eq :)
    have csu : s.clearOutputs.trigger.csu = s.clearOutputs.triggerLosses.csu := (congrArg State.csu eq :)
    rw [State.placeAll_sac, State.placeAll_csu, sac, csu]
    exact State.triggerLosses_of_full (s := s.clearOutputs) hfull hd
  · obtain ⟨sac, csu⟩ := State.triggerLosses_of_room (s := s.clearOutputs) hroom
    exact ⟨(congrArg State.sac eq).trans sac, (congrArg State.csu eq).trans csu⟩
  · refine (congrArg Lcu.gaps lcu).trans ?_
    rw [State.resumedGaps, start, hr, gaps]
    exact if_pos hb
  · refine (congrArg Lcu.gaps lcu).trans ?_
    rw [State.resumedGaps, start, gaps]
    cases hr : resume with
    | none => rfl
    | some r => exact if_neg (Bool.not_eq_true _ ▸ hb r hr)
  · obtain ⟨ppl, expiry⟩ := State.trigger_ppl_of_open (s := s.clearOutputs) hp
    exact ⟨(congrArg Ppl.piece ppl).trans hp, expiry.trans he⟩
  · have csu := (congrArg State.csu eq).trans hl.csu
    exact ⟨(congrArg State.fdu eq).trans hl.fdu, (congrArg State.cdu eq).trans hl.cdu, (congrArg State.rou eq).trans hl.rou,
      (congrArg Csu.inspection csu :), (congrArg Csu.slots csu :), (congrArg Csu.fifo csu :), (congrArg Csu.running csu :),
      (congrArg (fun u => u.tru.flight) eq).trans hl.flight, (congrArg (fun u => u.tru.transit) eq).trans hl.transit⟩

end Sys2Proof.Machine
end

section
/-! PROOFS. Arithmetic of the model: blob ids, classes, points, grades, tags and frames (O20, O22, O23, O24, O30). -/

namespace Sys2Proof.Machine

/-! ### Blob ids -/

theorem idAfter_eq {n : Nat} (h : n ≤ 65535) : idAfter n = n % 65535 + 1 := by
  unfold idAfter
  split <;> omega

theorem idAfter_bounds (n : Nat) : 1 ≤ idAfter n ∧ idAfter n ≤ 65535 := by
  unfold idAfter
  split <;> omega

theorem repeat_succ_comm {α : Type} (f : α → α) (n : Nat) (a : α) : Nat.repeat f (n + 1) a = Nat.repeat f n (f a) := by
  induction n with
  | zero => rfl
  | succ n ih => exact congrArg f ih

/-- The ids after `last` run through 1 to 65535 in a circle. -/
theorem repeat_idAfter (last m : Nat) : Nat.repeat idAfter (m + 1) last = (idAfter last - 1 + m) % 65535 + 1 := by
  obtain ⟨low, high⟩ := idAfter_bounds last
  induction m with
  | zero =>
    change idAfter last = _
    omega
  | succ m ih =>
    change idAfter (Nat.repeat idAfter (m + 1) last) = _
    rw [ih, idAfter_eq (by omega)]
    omega

theorem repeat_idAfter_inj (last : Nat) {a b : Nat} (ha : a < 65535) (hb : b < 65535)
    (h : Nat.repeat idAfter (a + 1) last = Nat.repeat idAfter (b + 1) last) : a = b := by
  rw [repeat_idAfter, repeat_idAfter] at h
  omega

/-- The search passes over held ids, and stops at the first one that is free or with its fuel. -/
theorem findId_spec (held : List Nat) (fuel : Nat) : ∀ last, ∃ n ≤ fuel, findId held fuel last = Nat.repeat idAfter (n + 1) last
    ∧ (∀ m, m < n → Nat.repeat idAfter (m + 1) last ∈ held) ∧ (n < fuel → Nat.repeat idAfter (n + 1) last ∉ held) := by
  induction fuel with
  | zero => exact fun last => ⟨0, Nat.le_refl 0, rfl, fun m hm => absurd hm (Nat.not_lt_zero m), fun h => absurd h (Nat.lt_irrefl 0)⟩
  | succ fuel ih =>
    intro last
    unfold findId
    split
    · next taken =>
      obtain ⟨n, hn, found, passed, free⟩ := ih (idAfter last)
      simp only [← repeat_succ_comm] at found passed free
      refine ⟨n + 1, Nat.succ_le_succ hn, found, fun m hm => ?_, fun h => free (Nat.lt_of_succ_lt_succ h)⟩
      cases m with
      | zero => exact taken
      | succ m => exact passed m (Nat.lt_of_succ_lt_succ hm)
    · next free => exact ⟨0, Nat.zero_le _, rfl, fun m hm => absurd hm (Nat.not_lt_zero m), fun _ => free⟩

/-- A list of fewer than 65535 ids does not hold all of as many ids after `last` and one more. -/
theorem not_all_held (held : List Nat) (last : Nat) (h : held.length < 65535) :
    ¬∀ m, m < held.length + 1 → Nat.repeat idAfter (m + 1) last ∈ held := by
  intro all
  have nodup : ((List.range (held.length + 1)).map fun m => Nat.repeat idAfter (m + 1) last).Nodup := by
    refine List.pairwise_map.mpr (List.Pairwise.imp_of_mem (fun {m k} hm hk ne same => ne ?_) List.nodup_range)
    rw [List.mem_range] at hm hk
    exact repeat_idAfter_inj last (by omega) (by omega) same
  have few := nodup.length_le_of_subset (l₂ := held) fun x hx => by
    obtain ⟨m, hm, rfl⟩ := List.mem_map.mp hx
    exact all m (List.mem_range.mp hm)
  rw [List.length_map, List.length_range] at few
  omega

/-- Settles O20: of the first `held.length + 1` ids after the last one, at most `held.length` are held. -/
theorem blobIdIsTheNextFree : Obligations.BlobIdIsTheNextFree := by
  intro held last h
  obtain ⟨n, hn, found, passed, free⟩ := findId_spec held held.length last
  have low : 1 ≤ nextBlobId held last ∧ nextBlobId held last ≤ 65535 := by
    rw [nextBlobId, found]
    exact idAfter_bounds _
  refine ⟨low.1, low.2, fun taken => ?_, n, found, passed⟩
  rw [nextBlobId, found] at taken
  rcases Nat.lt_or_eq_of_le hn with lt | rfl
  · exact free lt taken
  · refine not_all_held held last h fun m hm => ?_
    rcases Nat.lt_or_eq_of_le (Nat.le_of_lt_succ hm) with lt | rfl
    · exact passed m lt
    · exact taken

/-! ### Classes and points -/

/-- Settles O22. -/
theorem classIsTheFirstRuleThatMatches : Obligations.ClassIsTheFirstRuleThatMatches := by
  intro k m
  unfold ClassTable.classOf
  cases hr : k.rules.find? fun r => r.holds m with
  | none => exact .inl ⟨fun r hmem => by simpa using List.find?_eq_none.mp hr r hmem, rfl⟩
  | some r =>
    obtain ⟨holds, before, after, split, none⟩ := List.find?_eq_some_iff_append.mp hr
    exact .inr ⟨before, after, r, split, fun x hx => by simpa using none x hx, holds, rfl⟩

/-- Settles O23. -/
theorem effectivePointsTable : Obligations.EffectivePointsTable := by
  intro base w _ _
  unfold effectivePoints
  refine ⟨fun hw => if_pos hw, fun hw hb => ?_, fun hw hb => ?_, ?_⟩
  · rw [if_neg hw, if_pos hb]
  · rw [if_neg hw, if_neg hb]
  · split
    · next hw => simp [hw]
    · next hw =>
      split
      · next hb => simp [hb, hw]
      · next hb =>
        have capped : min 254 ((base * w + 4) / 8) ≠ 255 := Nat.ne_of_lt (Nat.lt_of_le_of_lt (Nat.min_le_left _ _) (by decide))
        exact ⟨fun h => absurd h capped, fun h => absurd h.1 hb⟩

/-! ### Grades -/

/-- The worse of two grades is no better than either. -/
theorem Grade.code_worse (g h : Grade) : g.code ≤ (g.worse h).code ∧ h.code ≤ (g.worse h).code := by
  unfold Grade.worse
  split
  · next lt => exact ⟨Fin.le_of_lt lt, Fin.le_refl _⟩
  · next ge => exact ⟨Fin.le_refl _, Fin.not_lt.mp ge⟩

/-- Nothing is worse than CULL. -/
theorem Grade.cull_worse (g : Grade) : Grade.cull.worse g = .cull := by
  cases g <;> rfl

/-- Settles O24. -/
theorem gradeIsCapped : Obligations.GradeIsCapped := by
  intro s withBlobs start e
  have grade : (s.grading withBlobs start e).grade =
      if (s.grading withBlobs start e).uninspected = 0
      then s.ppl.grade.bandGrade (s.grading withBlobs start e).disqualified (s.grading withBlobs start e).points
      else (s.ppl.grade.bandGrade (s.grading withBlobs start e).disqualified (s.grading withBlobs start e).points).worse
        s.ppl.grade.gapCap := rfl
  generalize s.grading withBlobs start e = g at grade ⊢
  rw [grade]
  refine ⟨fun hd => ?_, fun hu => ?_, ?_⟩
  · rw [hd, GradeTable.bandGrade, if_pos rfl, Grade.cull_worse, ite_self]
  · rw [if_neg hu]
    exact (Grade.code_worse _ _).2
  · split
    · exact Fin.le_refl _
    · exact (Grade.code_worse _ _).1

/-! ### Tags and frames -/

theorem tagAfter_ne (t : Byte) : tagAfter t ≠ 0 ∧ tagAfter t ≠ t := by
  unfold tagAfter
  split
  · next h => subst h; decide
  · next h => bv_omega

/-- Bytes and their check byte add up to 0 (R115). -/
theorem frame_sum (l : List Byte) : ((frame l).map BitVec.toNat).sum % 256 = 0 := by
  have sum : ∀ (l : List Byte) (a : Byte), (l.foldl (· + ·) a).toNat = (a.toNat + (l.map BitVec.toNat).sum) % 256 := by
    intro l
    induction l with
    | nil => exact fun a => (Nat.mod_eq_of_lt a.isLt).symm
    | cons b l ih =>
      intro a
      rw [List.foldl_cons, ih, List.map_cons, List.sum_cons, BitVec.toNat_add]
      omega
  have check : (checkByte l).toNat = (256 - (l.map BitVec.toNat).sum % 256) % 256 := by
    rw [checkByte, BitVec.toNat_sub, sum]
    simp
  rw [frame, List.map_append, List.sum_append, List.map_singleton, List.sum_singleton, check]
  omega

/-- Settles O30. -/
theorem tagsAndFrames : Obligations.TagsAndFrames := by
  refine ⟨fun last reported => ?_, fun s => ⟨?_, ?_, ?_⟩⟩
  · refine ⟨?_, ?_, fun h => if_neg h, fun h => (if_pos h).trans (by rw [h]), rfl⟩
    · unfold nextTag
      split <;> exact (tagAfter_ne _).1
    · unfold nextTag
      split
      · next h => exact h ▸ (tagAfter_ne _).2
      · next h => exact h
  · unfold State.linkFrame
    split
    · exact frame_sum _
    · exact frame_sum _
    · rfl
  · intro b sent h
    rw [State.linkFrame, h]
    rfl
  · intro b piece tag lane sent h
    rw [State.linkFrame, h]
    refine ⟨rfl, rfl, ?_⟩
    exact congrArg some (BitVec.toNat_ofNat _ _)

end Sys2Proof.Machine
end

section
/-! PROOFS. The commit of a piece (O26, O27). -/

namespace Sys2Proof.Machine

variable {s t u : State}

/-! ### Bookkeeping -/

/-- From `s` to `t` the capture, detection, planning and dispatch units are as before, of the shift only the counters, of the command and
status unit only the causes and the status write, of the transit unit only the requests that ask for a place. -/
structure State.Bookkeeps (s t : State) : Prop where
  lcu : t.lcu = s.lcu
  fdu : t.fdu = s.fdu
  ppl : t.ppl = s.ppl
  cdu : t.cdu = s.cdu
  tru : t.tru = { s.tru with placing := t.tru.placing }
  sac : t.sac = { s.sac with counters := t.sac.counters }
  csu : t.csu = { s.csu with causes := t.csu.causes, statusWaiting := t.csu.statusWaiting }

theorem State.Bookkeeps.refl (s : State) : s.Bookkeeps s := ⟨rfl, rfl, rfl, rfl, rfl, rfl, rfl⟩

theorem State.Bookkeeps.trans (h : s.Bookkeeps t) (h' : t.Bookkeeps u) : s.Bookkeeps u where
  lcu := h'.lcu.trans h.lcu
  fdu := h'.fdu.trans h.fdu
  ppl := h'.ppl.trans h.ppl
  cdu := h'.cdu.trans h.cdu
  tru := by rw [h'.tru, h.tru]
  sac := by rw [h'.sac, h.sac]
  csu := by rw [h'.csu, h.csu]

theorem State.requestStatus_bookkeeps (s : State) : s.Bookkeeps s.requestStatus where
  lcu := by simp
  fdu := by simp
  ppl := by simp
  cdu := by simp
  tru := by unfold State.requestStatus; split <;> rfl
  sac := by simp
  csu := by rw [State.requestStatus_csu]

theorem State.setCauses_bookkeeps (w : Word) (s : State) : s.Bookkeeps (s.setCauses w) := by
  unfold State.setCauses
  split
  · exact .refl s
  · have changed : s.Bookkeeps { s with csu.causes := w } := ⟨rfl, rfl, rfl, rfl, rfl, rfl, rfl⟩
    exact changed.trans (State.requestStatus_bookkeeps _)

theorem State.raise_bookkeeps (c : Cause) (s : State) : s.Bookkeeps (s.raise c) := State.setCauses_bookkeeps _ s

theorem State.count_bookkeeps (f : ShiftCounters → ShiftCounters) (s : State) : s.Bookkeeps (s.count f) :=
  ⟨rfl, rfl, rfl, rfl, rfl, rfl, rfl⟩

theorem State.onChannel_bookkeeps (ch : Fin 3) (f : Channel → Channel) (s : State) : s.Bookkeeps (s.onChannel ch f) :=
  ⟨rfl, rfl, rfl, rfl, rfl, rfl, rfl⟩

theorem State.produce_bookkeeps (ch : Fin 3) (b : RecordBody) (s : State) : s.Bookkeeps (s.produce ch b) := by
  unfold State.produce
  dsimp only
  split
  · exact State.onChannel_bookkeeps _ _ s
  · exact ((State.onChannel_bookkeeps _ _ s).trans (State.count_bookkeeps _ _)).trans (State.raise_bookkeeps _ _)

theorem State.pieceOutcome_bookkeeps (p : Piece) (o : PieceOutcome) (i : Option (Fin 4 × Byte × Pos)) (c : Byte) (s : State) :
    s.Bookkeeps (s.pieceOutcome p o i c) := by
  have counted : ∀ b f, s.Bookkeeps ((s.produce chPiece b).count f) := fun b f =>
    (State.produce_bookkeeps chPiece b s).trans (State.count_bookkeeps f _)
  unfold State.pieceOutcome
  cases o with
  | cut => exact counted _ _
  | missed => exact (counted _ _).trans (State.raise_bookkeeps _ _)
  | faulted => exact (counted _ _).trans (State.raise_bookkeeps _ _)
  | abandoned => exact counted _ _

theorem State.recordFlaw_bookkeeps (seq : Word) (s : State) (f : Flaw) : s.Bookkeeps (s.recordFlaw seq f) :=
  (State.produce_bookkeeps _ _ s).trans (State.count_bookkeeps _ _)

theorem State.foldl_recordFlaw_bookkeeps (seq : Word) (l : List Flaw) (s : State) :
    s.Bookkeeps (l.foldl (State.recordFlaw seq) s) :=
  foldl_related State.Bookkeeps.refl State.Bookkeeps.trans l s fun s f _ => State.recordFlaw_bookkeeps seq s f

/-! ### What records count -/

/-- Producing a record counts at most its drop (R139, R150). -/
theorem State.produce_counters (ch : Fin 3) (b : RecordBody) (s : State) :
    ∃ dropped, (s.produce ch b).sac.counters = { s.sac.counters with recordsDropped := dropped } := by
  unfold State.produce
  dsimp only
  split
  · exact ⟨s.sac.counters.recordsDropped, rfl⟩
  · exact ⟨_, by rw [State.raise_sac]; rfl⟩

/-- A produced record is counted on its channel (R140). -/
theorem State.produce_produced (ch : Fin 3) (b : RecordBody) (s : State) :
    ((s.produce ch b).channel ch).produced = (s.channel ch).produced + 1 := by
  rw [State.produce_channel]
  split <;> rfl

/-- Flaw records count flaws and drops alone (R95, R139). -/
theorem State.foldl_recordFlaw_counters (seq : Word) (l : List Flaw) : ∀ s : State, ∃ flaws dropped,
    (l.foldl (State.recordFlaw seq) s).sac.counters = { s.sac.counters with flaws := flaws, recordsDropped := dropped } := by
  induction l with
  | nil => exact fun s => ⟨s.sac.counters.flaws, s.sac.counters.recordsDropped, rfl⟩
  | cons f l ih =>
    intro s
    obtain ⟨flaws, dropped, h⟩ := ih (s.recordFlaw seq f)
    obtain ⟨first, hfirst⟩ := State.produce_counters chFlaw (.flaw { piece := seq, flaw := f }) s
    refine ⟨flaws, dropped, h.trans ?_⟩
    have counted : (s.recordFlaw seq f).sac.counters =
        { s.sac.counters with
          flaws := bump (s.produce chFlaw (.flaw { piece := seq, flaw := f })).sac.counters.flaws f.cls 1
          recordsDropped := first } :=
      congrArg (fun k : ShiftCounters => { k with
        flaws := bump (s.produce chFlaw (.flaw { piece := seq, flaw := f })).sac.counters.flaws f.cls 1 }) hfirst
    rw [counted]

/-- One record for each flaw (R95), on the flaw channel alone. -/
theorem State.foldl_recordFlaw_produced (seq : Word) (l : List Flaw) : ∀ s : State,
    ((l.foldl (State.recordFlaw seq) s).channel 0).produced = (s.channel 0).produced + BitVec.ofNat 32 l.length
      ∧ (l.foldl (State.recordFlaw seq) s).channel 1 = s.channel 1 := by
  induction l with
  | nil => exact fun s => ⟨(BitVec.add_zero _).symm, rfl⟩
  | cons f l ih =>
    intro s
    obtain ⟨produced, others⟩ := ih (s.recordFlaw seq f)
    have one : ((s.recordFlaw seq f).channel 0).produced = (s.channel 0).produced + 1 := State.produce_produced chFlaw _ s
    have other : (s.recordFlaw seq f).channel 1 = s.channel 1 := State.produce_channel_ne s _ (by decide)
    refine ⟨?_, others.trans other⟩
    rw [List.foldl_cons, produced, one, List.length_cons, Nat.add_comm, BitVec.ofNat_add, BitVec.add_assoc]
    rfl

/-! ### The commit -/

/-- The part after a commit has changed the store, the blobs and the gap list, before its records (R92, R93). -/
def State.collected (s : State) (mode : CommitMode) (e : Pos) : State :=
  { s with ppl.nextPiece := nextSequence s.ppl.nextPiece }.changeCollections mode e s.ppl.nextPiece

/-- The part after a commit's records (R95). -/
def State.recorded (s : State) (mode : CommitMode) (e : Pos) (t : State) : State :=
  (s.assigned mode e).foldl (State.recordFlaw s.ppl.nextPiece) t

/-- The piece of a commit, WAITING at the tail of the cut queue (R92). -/
def State.queued (s : State) (mode : CommitMode) (start : Pos) (c : Choice) : State :=
  { s.collected mode c.stop with cdu.queue := s.cdu.queue ++ [{ piece := s.pieceOf mode start c, state := .waiting false }] }

theorem State.commit_of_room {mode : CommitMode} {start : Pos} {c : Choice} (h : s.cdu.queue.length < 16) :
    s.commit mode start c = (s.recorded mode c.stop (s.queued mode start c)).armAt c.stop := by
  have room : ¬cutQueueCapacity ≤ s.cdu.queue.length := Nat.not_le.mpr h
  unfold State.commit
  dsimp only
  rw [if_neg room, if_neg room]
  rfl

theorem State.commit_of_full {mode : CommitMode} {start : Pos} {c : Choice} (h : 16 ≤ s.cdu.queue.length) :
    s.commit mode start c =
      ((s.recorded mode c.stop (s.collected mode c.stop)).armAt c.stop).pieceOutcome (s.pieceOf mode start c) .missed none noFaultCode := by
  have full : cutQueueCapacity ≤ s.cdu.queue.length := h
  unfold State.commit
  dsimp only
  rw [if_pos full, if_pos full]
  rfl

theorem State.recorded_bookkeeps (s : State) (mode : CommitMode) (e : Pos) (t : State) : t.Bookkeeps (s.recorded mode e t) :=
  State.foldl_recordFlaw_bookkeeps _ _ _

/-- A deadline follows the link's parameters and Lmin alone (R80, R81). -/
theorem State.deadlineOf_congr (hcdu : t.cdu.link = s.cdu.link) (hlmin : t.ppl.lmin = s.ppl.lmin) (p : Pos) :
    t.deadlineOf p = s.deadlineOf p := by
  simp only [State.deadlineOf, State.firePos, hcdu, hlmin]

/-- What a commit changes (R92 to R95); `base` is the part before its records. -/
theorem State.commit_frame {mode : CommitMode} {c : Choice} {base t : State}
    (ht : t = (s.recorded mode c.stop base).armAt c.stop) (hl : base.lcu = (s.collected mode c.stop).lcu)
    (hf : base.fdu = (s.collected mode c.stop).fdu) (hp : base.ppl = (s.collected mode c.stop).ppl)
    (hlink : base.cdu.link = s.cdu.link) (hs : base.sac = s.sac) (htru : base.tru = s.tru) (hcsu : base.csu = s.csu) :
    t.lcu = (s.collected mode c.stop).lcu ∧ t.fdu = (s.collected mode c.stop).fdu ∧ t.cdu = base.cdu
      ∧ t.ppl.nextPiece = nextSequence s.ppl.nextPiece
      ∧ t.ppl.piece = some { start := c.stop, deadline := s.deadlineOf c.stop }
      ∧ t.ppl.product = s.ppl.product ∧ t.ppl.grade = s.ppl.grade
      ∧ t.tru.flight = s.tru.flight ∧ t.csu.inspection = s.csu.inspection
      ∧ ∃ flaws dropped, t.sac.counters = { s.sac.counters with flaws := flaws, recordsDropped := dropped } := by
  have h := s.recorded_bookkeeps mode c.stop base
  obtain ⟨flaws, dropped, counters⟩ := State.foldl_recordFlaw_counters s.ppl.nextPiece (s.assigned mode c.stop) base
  have deadline : (s.recorded mode c.stop base).deadlineOf c.stop = s.deadlineOf c.stop :=
    State.deadlineOf_congr (by rw [h.cdu, hlink]) (by rw [h.ppl, hp]; rfl) _
  subst ht
  refine ⟨h.lcu.trans hl, h.fdu.trans hf, h.cdu, ?_, ?_, ?_, ?_, ?_, ?_, flaws, dropped, ?_⟩
  · exact (congrArg Ppl.nextPiece (h.ppl.trans hp) :)
  · rw [State.armAt_piece, deadline]
  · exact (congrArg Ppl.product (h.ppl.trans hp) :)
  · exact (congrArg Ppl.grade (h.ppl.trans hp) :)
  · exact (congrArg Tru.flight h.tru :).trans (congrArg Tru.flight htru :)
  · exact (congrArg Csu.inspection h.csu :).trans (congrArg Csu.inspection hcsu :)
  · rw [← hs]
    exact counters

/-- A piece's outcome is counted by its grade and its code, and counts no bridge (R104, R150). -/
theorem State.pieceOutcome_counters (p : Piece) (o : PieceOutcome) (i : Option (Fin 4 × Byte × Pos)) (c : Byte) (s : State) :
    (s.pieceOutcome p o i c).sac.counters.grades = bump s.sac.counters.grades p.grade.code 1
      ∧ (s.pieceOutcome p o i c).sac.counters.outcomes = bump s.sac.counters.outcomes o.code 1
      ∧ (s.pieceOutcome p o i c).sac.counters.bridgeFaults = s.sac.counters.bridgeFaults
      ∧ (s.pieceOutcome p o i c).sac.counters.bridgeMisses = s.sac.counters.bridgeMisses := by
  unfold State.pieceOutcome
  dsimp only
  generalize RecordBody.piece _ = body
  obtain ⟨dropped, h⟩ := State.produce_counters chPiece body s
  cases o with
  | cut => simp [State.count, h]
  | missed => simp [State.count, h]
  | faulted => simp [State.count, h]
  | abandoned => simp [State.count, h]

theorem State.pieceOutcome_outcomes (p : Piece) (o : PieceOutcome) (i : Option (Fin 4 × Byte × Pos)) (c : Byte) (s : State) :
    (s.pieceOutcome p o i c).sac.counters.outcomes = bump s.sac.counters.outcomes o.code 1 :=
  (State.pieceOutcome_counters p o i c s).2.1

/-- A piece's outcome is one PIECE record (R104), and none of another channel. -/
theorem State.pieceOutcome_produced (p : Piece) (o : PieceOutcome) (i : Option (Fin 4 × Byte × Pos)) (c : Byte) (s : State) :
    ((s.pieceOutcome p o i c).channel 1).produced = (s.channel 1).produced + 1 := by
  unfold State.pieceOutcome
  cases o with
  | cut => exact State.produce_produced chPiece _ s
  | missed => exact (congrArg Channel.produced (State.raise_channel _ _ _)).trans (State.produce_produced chPiece _ s)
  | faulted => exact (congrArg Channel.produced (State.raise_channel _ _ _)).trans (State.produce_produced chPiece _ s)
  | abandoned => exact State.produce_produced chPiece _ s

theorem State.pieceOutcome_channel_flaw (p : Piece) (o : PieceOutcome) (i : Option (Fin 4 × Byte × Pos)) (c : Byte) (s : State) :
    (s.pieceOutcome p o i c).channel 0 = s.channel 0 := by
  have other : ∀ b : RecordBody, (s.produce chPiece b).channel 0 = s.channel 0 := fun b =>
    State.produce_channel_ne s b (by decide)
  unfold State.pieceOutcome
  cases o with
  | cut => exact other _
  | missed => exact (State.raise_channel _ _ _).trans (other _)
  | faulted => exact (State.raise_channel _ _ _).trans (other _)
  | abandoned => exact other _

/-- Settles O26. -/
theorem commitTakesItsPlace : Obligations.CommitTakesItsPlace := by
  constructor
  · intro s mode start c room t p
    obtain ⟨lcu, fdu, cdu, next, piece, -, -, flight, inspection, flaws, dropped, counters⟩ :=
      State.commit_frame (base := s.queued mode start c) (State.commit_of_room room) rfl rfl rfl rfl rfl rfl rfl
    refine ⟨cdu, rfl, rfl, rfl, rfl, fun hc => if_pos hc, ?_, ?_, next, piece, congrArg Lcu.gaps lcu, ?_, ?_, inspection, flight,
      (congrArg Fdu.reference fdu :)⟩
    · exact decide_eq_true_iff
    · exact decide_eq_true_iff
    · exact (congrArg ShiftCounters.grades counters :)
    · exact (congrArg ShiftCounters.outcomes counters :)
  · intro s start c full t
    have eq := State.commit_of_full (mode := .forced) (start := start) (c := c) full
    obtain ⟨-, -, cdu, next, piece, -, -, -, -, flaws, dropped, counters⟩ :=
      State.commit_frame (mode := .forced) (c := c) (base := s.collected .forced c.stop) rfl rfl rfl rfl rfl rfl rfl rfl
    obtain ⟨-, one⟩ := State.foldl_recordFlaw_produced s.ppl.nextPiece (s.assigned .forced c.stop) (s.collected .forced c.stop)
    subst t
    rw [eq]
    refine ⟨?_, ?_, ?_, ?_, ?_, ?_⟩
    · rw [State.pieceOutcome_cdu, cdu]
      rfl
    · rw [State.pieceOutcome_outcomes, counters]
      rfl
    · rw [State.pieceOutcome_produced]
      exact congrArg (fun k : Channel => k.produced + 1) one
    · rw [State.pieceOutcome, State.raise_causes, BitVec.getLsbD_or]
      simp [Cause.bit]
    · rw [State.pieceOutcome_ppl, piece]
    · rw [State.pieceOutcome_ppl, next]

/-! ### Flaws at a cut position -/

theorem before_iff {a b : Pos} : before a b = true ↔ 1 ≤ (b - a).toNat ∧ (b - a).toNat < 2 ^ 31 := decide_eq_true_iff

theorem reaches_iff {x p : Pos} : reaches x p = true ↔ (p - x).toNat < 2 ^ 31 := decide_eq_true_iff

/-- A position behind another has not reached it. -/
theorem reaches_eq_false_of_before {a b : Pos} (h : before a b = true) : reaches b a = false := by
  rw [before_iff] at h
  rw [← Bool.not_eq_true, reaches_iff]
  bv_omega

/-- The copies a cut at `e` assigns, flaw by flaw (R61). -/
theorem filter_countedAt_map_copyAt (e : Pos) (l : List Flaw) :
    (l.filter (Flaw.countedAt e)).map (Flaw.copyAt e) = l.filterMap (fun f =>
      if reaches f.stop e then some f
      else if before f.first e ∧ before e f.stop then some { f with stop := e, cutThrough := true }
      else none) := by
  rw [← List.filterMap_eq_map, ← List.filterMap_eq_filter, List.filterMap_filterMap]
  refine filterMap_congr_of_mem fun f _ => ?_
  by_cases ends : reaches f.stop e = true
  · have behind : before e f.stop = false := by
      refine (Bool.not_eq_true _).mp fun across => ?_
      rw [reaches_eq_false_of_before across] at ends
      exact absurd ends nofun
    simp [Option.guard, Flaw.countedAt, Flaw.copyAt, ends, behind]
  · by_cases across : before f.first e = true ∧ before e f.stop = true
    · simp [Option.guard, Flaw.countedAt, Flaw.copyAt, ends, across]
    · simp [Option.guard, Flaw.countedAt, ends, across]

/-- What a commit leaves in the store, and how many flaw records it produces (R61, R93, R95). -/
theorem State.commit_store (s : State) (mode : CommitMode) (start : Pos) (c : Choice) :
    (s.commit mode start c).fdu.store = s.fdu.store.filterMap (Flaw.remainderAt c.stop s.ppl.nextPiece)
      ∧ ((s.commit mode start c).channel 0).produced = (s.channel 0).produced + BitVec.ofNat 32 (s.assigned mode c.stop).length := by
  by_cases room : s.cdu.queue.length < 16
  · obtain ⟨produced, -⟩ :=
      State.foldl_recordFlaw_produced s.ppl.nextPiece (s.assigned mode c.stop) (s.queued mode start c)
    rw [State.commit_of_room room]
    exact ⟨(congrArg Fdu.store (s.recorded_bookkeeps mode c.stop (s.queued mode start c)).fdu :), produced⟩
  · obtain ⟨produced, -⟩ := State.foldl_recordFlaw_produced s.ppl.nextPiece (s.assigned mode c.stop) (s.collected mode c.stop)
    rw [State.commit_of_full (Nat.not_lt.mp room), State.pieceOutcome_fdu, State.pieceOutcome_channel_flaw]
    exact ⟨(congrArg Fdu.store (s.recorded_bookkeeps mode c.stop (s.collected mode c.stop)).fdu :), produced⟩

/-- Settles O27. -/
theorem cutThroughLeavesARemainder : Obligations.CutThroughLeavesARemainder := by
  constructor
  · intro f e seq
    refine ⟨fun ends => if_pos ends, fun begins across => ?_, fun ends begins => ?_⟩
    · simp [Flaw.remainderAt, Flaw.copyAt, reaches_eq_false_of_before across, begins, across]
    · simp [Flaw.remainderAt, ends, begins]
  · intro s mode start c t e
    obtain ⟨store, produced⟩ := s.commit_store mode start c
    refine ⟨store, ⟨if mode.withBlobs then s.provisionals e true else [], ?_, ?_, fun f hf => ?_⟩, produced⟩
    · rw [State.assigned, filter_countedAt_map_copyAt]
    · rintro rfl
      rfl
    · split at hf
      · obtain ⟨b, hb, rfl⟩ := List.mem_map.mp hf
        obtain ⟨hmem, hprov⟩ := List.mem_filter.mp hb
        obtain ⟨harea, hbefore⟩ := Bool.and_eq_true_iff.mp hprov
        exact ⟨rfl, b, hmem, rfl, rfl, of_decide_eq_true harea, hbefore⟩
      · exact absurd hf List.not_mem_nil

end Sys2Proof.Machine
end

section
/-! PROOFS. What the close of an event keeps, and what an outcome, a miss test and a timeout test do to the cut queue (O31, O32, O33). -/

namespace Sys2Proof.Machine

variable {s t u : State}

/-! ### The close of an event -/

/-- From `s` to `t` no record is produced, no cause cleared and no own request withdrawn. -/
structure State.Adds (s t : State) : Prop where
  produced : ∀ ch, (t.channel ch).produced = (s.channel ch).produced
  causes : ∀ i, s.csu.causes.getLsbD i = true → t.csu.causes.getLsbD i = true
  requests : ∀ r, r ∈ s.tru.own ++ s.tru.waiting ++ s.tru.placing → r ∈ t.tru.own ++ t.tru.waiting ++ t.tru.placing

theorem State.Adds.refl (s : State) : s.Adds s := ⟨fun _ => rfl, fun _ => id, fun _ => id⟩

theorem State.Adds.trans (h : s.Adds t) (h' : t.Adds u) : s.Adds u :=
  ⟨fun ch => (h'.produced ch).trans (h.produced ch), fun i => h'.causes i ∘ h.causes i, fun r => h'.requests r ∘ h.requests r⟩

theorem State.complete_placing (n : Fin 8) (st : Status) (v : Word) (s : State) :
    ∃ l, (s.complete n st v).tru.placing = s.tru.placing ++ s.resultRequest n st v :: l := by
  have placing : ∀ t : State, ∃ l, t.requestStatus.tru.placing = t.tru.placing ++ l := by
    intro t
    rw [State.requestStatus_placing]
    split
    · exact ⟨[], (List.append_nil _).symm⟩
    · exact ⟨_, rfl⟩
  unfold State.complete State.raise State.setCauses
  dsimp only
  split
  · exact ⟨[], rfl⟩
  · obtain ⟨l, h⟩ := placing _
    exact ⟨l, h.trans (List.append_assoc _ _ _)⟩

theorem State.complete_adds (n : Fin 8) (st : Status) (v : Word) (s : State) : s.Adds (s.complete n st v) where
  produced ch := by rw [State.complete_channel]
  causes i h := by rw [State.complete_causes, BitVec.getLsbD_or, h, Bool.true_or]
  requests r h := by
    obtain ⟨l, e⟩ := State.complete_placing n st v s
    rw [State.complete_tru_own, State.complete_tru_waiting, e, ← List.append_assoc]
    exact List.mem_append_left _ h

theorem State.completeLoads_adds (s : State) : s.Adds s.completeLoads := by
  have tables : s.Adds s.completeTables := by
    unfold State.completeTables
    split
    · split
      · exact State.complete_adds _ _ _ _
      · exact .refl s
    · exact .refl s
  refine tables.trans ?_
  unfold State.completeLoads State.completeReference State.completeWith
  split
  · split
    · exact State.complete_adds _ _ _ _
    · exact .refl _
  · exact .refl _

theorem State.writeNext_adds (ch : Fin 3) (s : State) : s.Adds (s.writeNext ch) := by
  unfold State.writeNext
  dsimp only
  split
  · split
    · refine ⟨fun k => ?_, fun _ => id, fun r h => ?_⟩
      · rw [State.place_channel]
        by_cases hk : k = ch
        · rw [hk, State.onChannel_channel_same]
        · rw [State.onChannel_channel_ne s _ hk]
      · rw [State.place, ← List.append_assoc]
        exact List.mem_append_left _ h
    · exact .refl s
  · exact .refl s

theorem State.placeAll_requests (s : State) {r : OwnRequest} (h : r ∈ s.tru.own ++ s.tru.waiting ++ s.tru.placing) :
    r ∈ s.placeAll.tru.own ++ s.placeAll.tru.waiting := by
  have placed : ∀ room, r ∈ s.tru.placing → r ∈ (rankSorted s.tru.placing).take room ∨ r ∈ (rankSorted s.tru.placing).drop room := by
    intro room hr
    rw [← List.mem_append, List.take_append_drop, (rankSorted_perm s.tru.placing).mem_iff]
    exact hr
  simp only [List.mem_append] at h
  simp only [State.placeAll, List.mem_append]
  rcases h with (own | waiting) | placing
  · exact .inl (.inl own)
  · exact .inr (.inl waiting)
  · rcases placed (if s.tru.waiting.isEmpty then ownCapacity - s.tru.own.length else 0) placing with now | later
    · exact .inl (.inr now)
    · exact .inr (.inr later)

theorem State.classifyCandidate_adds (s : State) : s.Adds s.classifyCandidate := ⟨fun _ => rfl, fun _ => id, fun _ => id⟩

theorem State.beforePlaces_adds (s : State) : s.Adds s.completeLoads.writeAll.classifyCandidate :=
  ((((State.completeLoads_adds s).trans (State.writeNext_adds 0 _)).trans (State.writeNext_adds 1 _)).trans
    (State.writeNext_adds 2 _)).trans (State.classifyCandidate_adds _)

/-- The close of an event produces no record. -/
@[simp] theorem State.finish_produced (s : State) (ch : Fin 3) : (s.finish.channel ch).produced = (s.channel ch).produced :=
  s.beforePlaces_adds.produced ch

/-- The close of an event clears no cause. -/
theorem State.finish_causes {i : Nat} (h : s.csu.causes.getLsbD i = true) : s.finish.csu.causes.getLsbD i = true :=
  s.beforePlaces_adds.causes i h

/-- At the close of an event every own request of the event has its place, or waits for one (R132). -/
theorem State.finish_requests {r : OwnRequest} (h : r ∈ s.tru.placing) : r ∈ s.finish.tru.own ++ s.finish.tru.waiting :=
  State.placeAll_requests _ (s.beforePlaces_adds.requests r (List.mem_append_right _ h))

/-! ### ENTRY_DUE -/

theorem State.dueEntry_of_head {l m : List Entry} {e : Entry} (hq : s.cdu.queue = l ++ e :: m) (hl : ∀ x ∈ l, x.isWaiting = false)
    (he : e.isWaiting = true) (due : reaches e.piece.fire s.lcu.counter = true) : s.dueEntry = some e := by
  have none : l.find? Entry.isWaiting = none := List.find?_eq_none.mpr fun x hx => by rw [hl x hx]; exact nofun
  have head : s.cdu.queue.find? Entry.isWaiting = some e := by
    rw [hq, List.find?_append, none, List.find?_cons_of_pos he]
    rfl
  rw [State.dueEntry, head]
  exact if_pos due

/-- Settles O31. -/
theorem entryDueStartsTheTransfer : Obligations.EntryDueStartsTheTransfer := by
  intro s ahead behind e b closed low he hm ht gap hq hahead hwait due idle hlow tag
  have bridge : s.idleBridge = some b := find?_finRange (decide_eq_true idle) fun c hc => decide_eq_false (hlow c hc)
  have ready : s.cutReady = some (e, b) := by
    rw [State.cutReady, State.dueEntry_of_head hq hahead hwait due, bridge]
  have inGap : s.cdu.engine.inGap = true := by rw [gap]; rfl
  have event : s.clearOutputs.dueEvent = s.clearOutputs.startCut e b := by
    refine (if_pos inGap).trans ?_
    rw [show s.clearOutputs.cutReady = some (e, b) from ready]
  have still : s.clearOutputs.settleExpiry = s.clearOutputs := State.ifOwed_of_not he
  have tested : s.clearOutputs.settleTests = s.clearOutputs := by
    have missed : s.clearOutputs.ifOwed (fun s => s.cdu.missTest) State.missEvent = s.clearOutputs := State.ifOwed_of_not hm
    rw [State.settleTests, missed, State.ifOwed_of_not (by exact ht)]
  have owed : s.clearOutputs.dueOwed = true := by
    rw [State.dueOwed, show s.clearOutputs.cutReady = some (e, b) from ready]
    exact Bool.and_eq_true_iff.mpr ⟨inGap, rfl⟩
  have high : ¬s.porstLow = true := by rw [low]; exact nofun
  rw [exec, execEntryDue, if_neg high, still, tested, still, State.settleDue, State.ifOwed_of_owed owed, State.event,
    event, State.finish_of_closed (by exact closed)]
  rfl

/-! ### Outcomes -/

theorem State.Bookkeeps.queue (h : s.Bookkeeps t) (f : List Entry → List Entry) :
    State.Bookkeeps { s with cdu.queue := f s.cdu.queue } { t with cdu.queue := f t.cdu.queue } where
  lcu := h.lcu
  fdu := h.fdu
  ppl := h.ppl
  cdu := by rw [h.cdu]
  tru := h.tru
  sac := h.sac
  csu := h.csu

/-- The entry whose outcome is taken leaves the queue (R104). -/
theorem State.entryOutcome_bookkeeps (o : PieceOutcome) (e : Entry) (s : State) :
    State.Bookkeeps { s with cdu.queue := s.cdu.queue.filter fun x => x.piece.seq != e.piece.seq } (s.entryOutcome o e) :=
  State.pieceOutcome_bookkeeps ..

/-- The queue without the entries of `l`. -/
def withoutEntries (l queue : List Entry) : List Entry := queue.filter fun x => !l.any fun e => x.piece.seq == e.piece.seq

theorem withoutEntries_cons (e : Entry) (l queue : List Entry) :
    withoutEntries (e :: l) queue = withoutEntries l (queue.filter fun x => x.piece.seq != e.piece.seq) := by
  rw [withoutEntries, withoutEntries, List.filter_filter]
  refine List.filter_congr fun x _ => ?_
  rw [List.any_cons, Bool.not_or, Bool.and_comm]
  rfl

theorem withoutEntries_nil (queue : List Entry) : withoutEntries [] queue = queue := List.filter_eq_self.mpr fun _ _ => rfl

theorem State.foldl_entryOutcome_bookkeeps (o : PieceOutcome) (l : List Entry) : ∀ s : State,
    State.Bookkeeps { s with cdu.queue := withoutEntries l s.cdu.queue } (l.foldl (State.entryOutcome o) s) := by
  induction l with
  | nil =>
    intro s
    rw [withoutEntries_nil]
    exact .refl s
  | cons e l ih =>
    intro s
    have first := (State.entryOutcome_bookkeeps o e s).queue (withoutEntries l)
    rw [withoutEntries_cons]
    exact first.trans (ih (s.entryOutcome o e))

theorem State.entryOutcome_outcomes (o : PieceOutcome) (s : State) (e : Entry) :
    (s.entryOutcome o e).sac.counters.outcomes = bump s.sac.counters.outcomes o.code 1 :=
  State.pieceOutcome_outcomes ..

theorem State.entryOutcome_produced (o : PieceOutcome) (s : State) (e : Entry) :
    ((s.entryOutcome o e).channel 1).produced = (s.channel 1).produced + 1 :=
  State.pieceOutcome_produced ..

theorem satAdd_satAdd (top a b c : Nat) : satAdd top (satAdd top a b) c = satAdd top a (b + c) := by
  unfold satAdd
  omega

theorem bump_bump {n : Nat} (v : Vector Nat n) (i : Fin n) (a b : Nat) : bump (bump v i a) i b = bump v i (a + b) := by
  simp [bump, satAdd_satAdd]

theorem bump_same {n : Nat} (v : Vector Nat n) (i : Fin n) (k : Nat) : (bump v i k)[i] = satAdd max32 v[i] k := by simp [bump]

theorem bump_ne {n : Nat} (v : Vector Nat n) {i j : Fin n} (h : j ≠ i) (k : Nat) : (bump v i k)[j] = v[j] := by
  have : (i : Nat) ≠ j := fun e => h (Fin.ext e.symm)
  simp [bump, Vector.getElem_set_ne, this]

theorem State.foldl_entryOutcome_outcomes (o : PieceOutcome) (l : List Entry) : ∀ (s : State) (e : Entry),
    ((e :: l).foldl (State.entryOutcome o) s).sac.counters.outcomes = bump s.sac.counters.outcomes o.code (e :: l).length := by
  induction l with
  | nil => exact fun s e => State.entryOutcome_outcomes o s e
  | cons d l ih =>
    intro s e
    rw [List.foldl_cons, ih, State.entryOutcome_outcomes, bump_bump, Nat.add_comm, List.length_cons (a := e)]

/-- No outcome counts a fault or a miss of a bridge. -/
theorem State.foldl_entryOutcome_bridges (o : PieceOutcome) (l : List Entry) : ∀ s : State,
    (l.foldl (State.entryOutcome o) s).sac.counters.bridgeFaults = s.sac.counters.bridgeFaults
      ∧ (l.foldl (State.entryOutcome o) s).sac.counters.bridgeMisses = s.sac.counters.bridgeMisses := by
  induction l with
  | nil => exact fun s => ⟨rfl, rfl⟩
  | cons e l ih =>
    intro s
    obtain ⟨-, -, faults, misses⟩ : _ ∧ _ ∧ (s.entryOutcome o e).sac.counters.bridgeFaults = _
      ∧ (s.entryOutcome o e).sac.counters.bridgeMisses = _ := State.pieceOutcome_counters ..
    obtain ⟨faults', misses'⟩ := ih (s.entryOutcome o e)
    exact ⟨faults'.trans faults, misses'.trans misses⟩

theorem State.foldl_entryOutcome_produced (o : PieceOutcome) (l : List Entry) : ∀ s : State,
    ((l.foldl (State.entryOutcome o) s).channel 1).produced = (s.channel 1).produced + BitVec.ofNat 32 l.length := by
  induction l with
  | nil => exact fun s => (BitVec.add_zero _).symm
  | cons e l ih =>
    intro s
    rw [List.foldl_cons, ih, State.entryOutcome_produced, List.length_cons, Nat.add_comm l.length, BitVec.ofNat_add, BitVec.add_assoc]
    rfl

/-- MISSED raises PIECE_MISSED, FAULTED raises BRIDGE_FAULT (R104, R165). -/
def PieceOutcome.cause : PieceOutcome → Option Cause
  | .cut => none
  | .missed => some .pieceMissed
  | .faulted => some .bridgeFault
  | .abandoned => none

theorem State.raise_bit (c : Cause) (s : State) : (s.raise c).csu.causes.getLsbD c.bit = true := by
  have small : c.bit < 32 := by
    cases c with
    | chFlag ch => exact Nat.lt_of_lt_of_le (Nat.add_lt_add_left ch.isLt _) (by decide)
    | chStop ch => exact Nat.lt_of_lt_of_le (Nat.add_lt_add_left ch.isLt _) (by decide)
    | chEol ch => exact Nat.lt_of_lt_of_le (Nat.add_lt_add_left ch.isLt _) (by decide)
    | _ => decide
  have bit : (BitVec.ofNat 32 (2 ^ c.bit)).getLsbD c.bit = true := by
    rw [BitVec.getLsbD_ofNat, decide_eq_true small, Nat.testBit_two_pow_self]
    rfl
  rw [State.raise_causes, BitVec.getLsbD_or, bit, Bool.or_true]

theorem State.entryOutcome_causes {o : PieceOutcome} {c : Cause} (h : o.cause = some c) (s : State) (e : Entry) :
    (s.entryOutcome o e).csu.causes.getLsbD c.bit = true := by
  unfold State.entryOutcome State.pieceOutcome
  cases o with
  | cut => exact absurd h nofun
  | abandoned => exact absurd h nofun
  | missed =>
    obtain rfl := Option.some.inj h
    exact State.raise_bit _ _
  | faulted =>
    obtain rfl := Option.some.inj h
    exact State.raise_bit _ _

theorem State.foldl_entryOutcome_causes {o : PieceOutcome} {c : Cause} (h : o.cause = some c) {l : List Entry} (hl : l ≠ []) (s : State) :
    (l.foldl (State.entryOutcome o) s).csu.causes.getLsbD c.bit = true := by
  rw [← List.dropLast_concat_getLast hl, List.foldl_append]
  exact State.entryOutcome_causes h _ _

/-! ### The miss test -/

/-- Settles O32. -/
theorem missTest : Obligations.MissTest := by
  intro s low closed he owed missed
  have start : exec .entryMissed s = .next s.clearOutputs.missEvent.finish := taken_of_owed low he owed
  have keeps := State.foldl_entryOutcome_bookkeeps .missed missed { s.clearOutputs with cdu.missTest := false }
  refine ⟨_, start, ?_⟩
  have event : s.clearOutputs.missEvent = missed.foldl (State.entryOutcome .missed) { s.clearOutputs with cdu.missTest := false } := rfl
  rw [event]
  have cdu := (State.finish_cdu _).trans keeps.cdu
  refine ⟨(congrArg Cdu.missTest cdu :), (congrArg Cdu.queue cdu :), fun none => ?_, fun some => ⟨?_, ?_⟩, ?_,
    (congrArg Cdu.bridges cdu :), (congrArg Cdu.engine cdu :), (congrArg Cdu.tag cdu :), (congrArg Cdu.link cdu :),
    (congrArg Cdu.timeoutTest cdu :), (congrArg Cdu.missTol cdu :), (State.finish_lcu _).trans keeps.lcu,
    (State.finish_fdu _).trans keeps.fdu, (State.finish_ppl _).trans keeps.ppl, (State.finish_tru_flight _).trans (congrArg Tru.flight keeps.tru :)⟩
  · rw [none, List.foldl_nil, State.finish_of_closed (by exact closed)]
    exact ⟨rfl, rfl⟩
  · obtain ⟨e, l, hl⟩ := List.exists_cons_of_ne_nil some
    rw [hl]
    exact (congrArg (fun a : Sac => a.counters.outcomes[1]) (State.finish_sac _)).trans
      ((congrArg (fun v : Vector Nat 4 => v[1]) (State.foldl_entryOutcome_outcomes .missed l _ e)).trans (bump_same _ 1 _))
  · exact State.finish_causes (State.foldl_entryOutcome_causes (c := .pieceMissed) rfl some _)
  · rw [State.finish_produced, State.foldl_entryOutcome_produced]
    rfl

end Sys2Proof.Machine
end

section
/-! PROOFS. The bridges (R104 to R111): what faults, misses and the end of BUSY change, and the timeout test (O33). -/

namespace Sys2Proof.Machine

variable {s t u : State}

/-! ### Bridges -/

/-- What a bridge is when its BUSY state ends (R107). -/
def Bridge.freed (enabled : Bool) (st : BridgeState) (x : Bridge) : Bridge :=
  if enabled then { x with state := st } else { x with state := .disabled, misses := 0 }

theorem State.endBusy_eq (b : Fin 4) (st : BridgeState) (s : State) :
    s.endBusy b st = s.onBridge b (Bridge.freed (s.cdu.mask.getLsbD b.val) st) := by
  unfold State.endBusy Bridge.freed
  split <;> rfl

theorem State.onBridge_onBridge (b : Fin 4) (f g : Bridge → Bridge) (s : State) :
    (s.onBridge b f).onBridge b g = s.onBridge b (g ∘ f) := by
  simp [State.onBridge, State.bridge]

@[simp] theorem State.onBridge_mask (b : Fin 4) (f : Bridge → Bridge) (s : State) : (s.onBridge b f).cdu.mask = s.cdu.mask := rfl

theorem State.bridge_congr (h : t.cdu.bridges = s.cdu.bridges) (c : Fin 4) : t.bridge c = s.bridge c :=
  congrArg (fun v : Vector Bridge 4 => v[c]) h

theorem State.bridgeFaulted_bookkeeps (b : Fin 4) (s : State) : s.Bookkeeps (s.bridgeFaulted b) :=
  (State.count_bookkeeps _ s).trans (State.raise_bookkeeps _ _)

theorem State.bridgeFaulted_counters (b : Fin 4) (s : State) :
    (s.bridgeFaulted b).sac.counters = { s.sac.counters with bridgeFaults := bump s.sac.counters.bridgeFaults b 1 } := by
  simp [State.bridgeFaulted, State.count]

/-! ### The timeout test -/

/-- A bridge whose order has timed out (R107, R109). -/
def Bridge.expired (enabled : Bool) (x : Bridge) : Bridge :=
  if enabled then { x with state := .fault, faultCode := 0x80 } else { x with state := .disabled, misses := 0, faultCode := 0x80 }

theorem State.timeoutBridge_eq (b : Fin 4) (s : State) :
    s.timeoutBridge b =
      if s.cdu.mask.getLsbD b.val then (s.onBridge b (Bridge.expired true)).bridgeFaulted b
      else s.onBridge b (Bridge.expired false) := by
  unfold State.timeoutBridge
  dsimp only
  rw [State.endBusy_eq, State.onBridge_onBridge, State.onBridge_bridge_same, State.onBridge_mask]
  cases s.cdu.mask.getLsbD b.val with
  | true => exact if_pos rfl
  | false => exact if_neg (nofun : BridgeState.disabled ≠ .fault)

/-- From `s` to `t` the bridges of `l` have timed out: they, their faults and the causes have changed (R107, R109, R111). -/
structure State.TimesOut (l : List (Fin 4)) (s t : State) : Prop where
  frame : State.Bookkeeps { s with cdu.bridges := t.cdu.bridges } t
  bridge : ∀ b, t.bridge b = if b ∈ l then (s.bridge b).expired (s.cdu.mask.getLsbD b.val) else s.bridge b
  faults : ∀ b : Fin 4, t.sac.counters.bridgeFaults[b] =
    if b ∈ l ∧ s.cdu.mask.getLsbD b.val = true then satAdd max32 s.sac.counters.bridgeFaults[b] 1
    else s.sac.counters.bridgeFaults[b]
  counters : t.sac.counters = { s.sac.counters with bridgeFaults := t.sac.counters.bridgeFaults }

theorem State.Bookkeeps.bridges (h : s.Bookkeeps t) : State.Bookkeeps { s with cdu.bridges := t.cdu.bridges } t where
  lcu := h.lcu
  fdu := h.fdu
  ppl := h.ppl
  cdu := by rw [h.cdu]
  tru := h.tru
  sac := h.sac
  csu := h.csu

theorem State.timesOut_one (b : Fin 4) (s : State) : s.TimesOut [b] (s.timeoutBridge b) := by
  cases hm : s.cdu.mask.getLsbD b.val with
  | true =>
    rw [State.timeoutBridge_eq, if_pos hm]
    have keeps := State.bridgeFaulted_bookkeeps b (s.onBridge b (Bridge.expired true))
    have counters := State.bridgeFaulted_counters b (s.onBridge b (Bridge.expired true))
    refine ⟨keeps.bridges, fun c => ?_, fun c => ?_, counters.trans (by rw [counters]; rfl)⟩
    · rw [State.bridge_congr (congrArg Cdu.bridges keeps.cdu)]
      by_cases hc : c = b
      · rw [hc, if_pos (List.mem_singleton_self b), State.onBridge_bridge_same, hm]
      · rw [if_neg (mt List.mem_singleton.mp hc), State.onBridge_bridge_ne s _ hc]
    · rw [counters]
      by_cases hc : c = b
      · rw [hc, if_pos ⟨List.mem_singleton_self b, hm⟩]
        exact bump_same _ _ _
      · rw [if_neg fun h => hc (List.mem_singleton.mp h.1)]
        exact bump_ne _ hc _
  | false =>
    rw [State.timeoutBridge_eq, if_neg (by rw [hm]; exact nofun)]
    refine ⟨.refl _, fun c => ?_, fun c => ?_, rfl⟩
    · by_cases hc : c = b
      · rw [hc, if_pos (List.mem_singleton_self b), hm]
        exact State.onBridge_bridge_same ..
      · rw [if_neg (mt List.mem_singleton.mp hc)]
        exact State.onBridge_bridge_ne s _ hc
    · refine (if_neg fun h => ?_).symm
      rw [List.mem_singleton.mp h.1, hm] at h
      exact absurd h.2 nofun

theorem State.TimesOut.cons {b : Fin 4} {l : List (Fin 4)} (hb : b ∉ l) (h : s.TimesOut [b] t) (h' : t.TimesOut l u) :
    s.TimesOut (b :: l) u := by
  have mask : t.cdu.mask = s.cdu.mask := (congrArg Cdu.mask h.frame.cdu :)
  refine ⟨?_, fun c => ?_, fun c => ?_, ?_⟩
  · have again : State.Bookkeeps { s with cdu.bridges := u.cdu.bridges } { t with cdu.bridges := u.cdu.bridges } :=
      { lcu := h.frame.lcu, fdu := h.frame.fdu, ppl := h.frame.ppl, cdu := by rw [h.frame.cdu], tru := h.frame.tru, sac := h.frame.sac
        csu := h.frame.csu }
    exact again.trans h'.frame
  · rw [h'.bridge, h.bridge, mask]
    by_cases hc : c = b
    · subst hc
      simp [hb]
    · simp [hc]
  · rw [h'.faults, h.faults, mask]
    by_cases hc : c = b
    · subst hc
      simp [hb]
    · simp [hc]
  · rw [h'.counters, h.counters]

theorem State.foldl_timesOut {l : List (Fin 4)} (hl : l.Nodup) : ∀ s : State, s.TimesOut l (l.foldl State.timeoutBridge s) := by
  induction l with
  | nil =>
    exact fun s => ⟨.refl s, fun b => (if_neg List.not_mem_nil).symm, fun b => (if_neg fun h => absurd h.1 List.not_mem_nil).symm, rfl⟩
  | cons b l ih =>
    intro s
    obtain ⟨hb, hl⟩ := List.nodup_cons.mp hl
    exact (s.timesOut_one b).cons hb (ih hl _)

theorem State.timedOut_eq (s : State) (b : Fin 4) : s.timedOut b = s.cdu.queue.any fun e => e.issued.any fun x =>
    decide (x.1 = b) && decide (s.cdu.link.cutTimeout ≤ dist x.2.2 s.lcu.counter) := by
  unfold State.timedOut
  congr 1
  funext e
  unfold Entry.issued
  cases e.state <;> rfl

/-- The bridges whose orders have timed out (R109). -/
def State.lateBridges (s : State) : List (Fin 4) := (List.finRange 4).filter s.timedOut

/-- The entries ISSUED to them. -/
def State.lateEntries (s : State) : List Entry := s.cdu.queue.filter fun e => e.issued.any fun x => s.lateBridges.contains x.1

theorem State.mem_lateBridges {b : Fin 4} : b ∈ s.lateBridges ↔ s.timedOut b = true := by
  simp [State.lateBridges]

theorem State.lateEntries_eq (s : State) :
    s.lateEntries = s.cdu.queue.filter fun e => e.issued.any fun x => s.timedOut x.1 := by
  unfold State.lateEntries
  congr 1
  funext e
  congr 1
  funext x
  rw [Bool.eq_iff_iff, List.contains_iff_mem, State.mem_lateBridges]

/-- A late bridge has a late entry. -/
theorem State.lateEntries_ne_nil {b : Fin 4} (h : s.timedOut b = true) : s.lateEntries ≠ [] := by
  rw [State.timedOut_eq, List.any_eq_true] at h
  obtain ⟨e, he, issued⟩ := h
  obtain ⟨x, hx, late⟩ := (Option.any_eq_true _ _).mp issued
  have bridge : x.1 = b := of_decide_eq_true (Bool.and_eq_true_iff.mp late).1
  refine List.ne_nil_of_mem (List.mem_filter.mpr ⟨he, (Option.any_eq_true _ _).mpr ⟨x, hx, ?_⟩⟩)
  rw [List.contains_iff_mem, State.mem_lateBridges, bridge, State.timedOut_eq]
  exact List.any_eq_true.mpr ⟨e, he, issued⟩

theorem State.timeoutTestAll_eq (s : State) :
    s.timeoutTestAll = s.lateEntries.foldl (State.entryOutcome .faulted) (s.lateBridges.foldl State.timeoutBridge s) := rfl

theorem State.reviewEngine_eq (s : State) : ∃ engine loopPos gapRunning, s.reviewEngine =
    { s with cdu.engine := engine, cdu.loopPos := loopPos, cdu.gapRunning := gapRunning } := by
  unfold State.reviewEngine State.startRound
  dsimp only
  split
  · split
    · exact ⟨s.cdu.engine, s.cdu.loopPos, s.cdu.gapRunning, rfl⟩
    · split
      · exact ⟨_, _, _, rfl⟩
      · exact ⟨_, _, _, rfl⟩
  · split
    · exact ⟨_, _, _, rfl⟩
    · exact ⟨s.cdu.engine, s.cdu.loopPos, s.cdu.gapRunning, rfl⟩
  · exact ⟨s.cdu.engine, s.cdu.loopPos, s.cdu.gapRunning, rfl⟩

/-- What the timeout test changes (R104, R109). -/
theorem State.timeoutTestAll_facts (s : State) :
    State.Bookkeeps { s with cdu.bridges := s.timeoutTestAll.cdu.bridges, cdu.queue := withoutEntries s.lateEntries s.cdu.queue }
        s.timeoutTestAll
      ∧ (∀ b, s.timeoutTestAll.bridge b =
          if s.timedOut b then (s.bridge b).expired (s.cdu.mask.getLsbD b.val) else s.bridge b)
      ∧ (∀ b : Fin 4, s.timeoutTestAll.sac.counters.bridgeFaults[b] =
          if s.timedOut b ∧ s.cdu.mask.getLsbD b.val = true then satAdd max32 s.sac.counters.bridgeFaults[b] 1
          else s.sac.counters.bridgeFaults[b])
      ∧ (s.lateEntries ≠ [] →
          s.timeoutTestAll.sac.counters.outcomes = bump s.sac.counters.outcomes 2 s.lateEntries.length
            ∧ s.timeoutTestAll.csu.causes.getLsbD 13 = true)
      ∧ (s.lateEntries = [] → s.timeoutTestAll = s) := by
  have nodup : s.lateBridges.Nodup := (List.nodup_finRange 4).filter _
  have out := State.foldl_timesOut nodup s
  have taken := State.foldl_entryOutcome_bookkeeps .faulted s.lateEntries (s.lateBridges.foldl State.timeoutBridge s)
  obtain ⟨faults, -⟩ := State.foldl_entryOutcome_bridges .faulted s.lateEntries (s.lateBridges.foldl State.timeoutBridge s)
  rw [State.timeoutTestAll_eq]
  have bridges := (congrArg Cdu.bridges taken.cdu :)
  refine ⟨?_, fun b => ?_, fun b => ?_, fun some => ⟨?_, ?_⟩, fun none => ?_⟩
  · rw [bridges]
    exact (out.frame.queue (withoutEntries s.lateEntries)).trans (by rw [out.frame.cdu] at taken ⊢; exact taken)
  · rw [State.bridge_congr bridges]
    simp only [← State.mem_lateBridges]
    exact out.bridge b
  · rw [faults]
    simp only [← State.mem_lateBridges]
    exact out.faults b
  · obtain ⟨e, l, hl⟩ := List.exists_cons_of_ne_nil some
    rw [hl, State.foldl_entryOutcome_outcomes, out.counters]
    rfl
  · exact State.foldl_entryOutcome_causes (c := .bridgeFault) rfl some _
  · have none' : s.lateBridges = [] := by
      refine List.eq_nil_iff_forall_not_mem.mpr fun b hb => ?_
      exact State.lateEntries_ne_nil (State.mem_lateBridges.mp hb) none
    rw [none, none']
    rfl

/-- Settles O33. -/
theorem timeoutTest : Obligations.TimeoutTest := by
  intro s low he owed out entries
  have start : exec .cutTimeout s = .next s.clearOutputs.timeoutEvent.finish := taken_of_owed low he owed
  refine ⟨_, start, ?_⟩
  obtain ⟨base, hbase⟩ : ∃ base : State, base = { s.clearOutputs with cdu.timeoutTest := false } := ⟨_, rfl⟩
  have timedOut : ∀ b, base.timedOut b = s.cdu.queue.any (out b) := by
    intro b
    rw [State.timedOut_eq, hbase]
    rfl
  have late : base.lateEntries = entries := by
    rw [State.lateEntries_eq]
    simp only [timedOut]
    rw [hbase]
    rfl
  have queue : base.cdu.queue = s.cdu.queue := by rw [hbase]; rfl
  have bridges : ∀ b, base.bridge b = s.bridge b := by rw [hbase]; exact fun _ => rfl
  have mask : base.cdu.mask = s.cdu.mask := by rw [hbase]; rfl
  have sac : base.sac = s.sac := by rw [hbase]; rfl
  obtain ⟨frame, bridge, faults, some, none⟩ := base.timeoutTestAll_facts
  obtain ⟨engine, loopPos, gapRunning, review⟩ := State.reviewEngine_eq base.timeoutTestAll
  have event : s.clearOutputs.timeoutEvent = base.timeoutTestAll.reviewEngine := by rw [hbase]; rfl
  rw [late] at some none frame
  rw [queue] at frame
  simp only [timedOut, bridges, mask, sac] at bridge faults some
  rw [event, review]
  refine ⟨?_, fun b hb => ⟨?_, ?_, ?_⟩, fun b hb => ?_, ?_, fun h => ?_, fun h => ?_, ?_, ?_, ?_, ?_, ?_, ?_, ?_⟩
  · rw [State.finish_cdu]
    exact (congrArg Cdu.timeoutTest frame.cdu :).trans (by rw [hbase])
  · rw [State.finish_bridge]
    refine (bridge b).trans ?_
    rw [if_pos hb]
    rfl
  · refine (congrArg (fun a : Sac => a.counters.bridgeFaults[b]) (State.finish_sac _)).trans ((faults b).trans ?_)
    simp only [hb, true_and]
  · refine State.finish_causes (some ?_).2
    rw [← late]
    exact State.lateEntries_ne_nil ((timedOut b).trans hb)
  · rw [State.finish_bridge]
    exact (bridge b).trans (if_neg (by rw [hb]; exact nofun))
  · rw [State.finish_cdu]
    exact (congrArg Cdu.queue frame.cdu :)
  · refine (congrArg (fun a : Sac => a.counters.outcomes[2]) (State.finish_sac _)).trans ?_
    exact (congrArg (fun v : Vector Nat 4 => v[2]) (some h).1).trans (bump_same _ 2 _)
  · rw [State.finish_sac]
    exact (congrArg State.sac (none h)).trans sac
  · rw [State.finish_cdu]
    exact (congrArg Cdu.mask frame.cdu :).trans mask
  · rw [State.finish_cdu]
    exact (congrArg Cdu.tag frame.cdu :).trans (by rw [hbase]; rfl)
  · rw [State.finish_cdu]
    exact (congrArg Cdu.missTest frame.cdu :).trans (by rw [hbase]; rfl)
  · rw [State.finish_lcu]
    exact frame.lcu.trans (by rw [hbase]; rfl)
  · rw [State.finish_fdu]
    exact frame.fdu.trans (by rw [hbase]; rfl)
  · rw [State.finish_ppl]
    exact frame.ppl.trans (by rw [hbase]; rfl)
  · rw [State.finish_tru_flight]
    exact (congrArg Tru.flight frame.tru :).trans (by rw [hbase]; rfl)

end Sys2Proof.Machine
end

section
/-! PROOFS. The transfers of the cutter link (R105 to R120): what every event of the link leaves as it is, the transfer boundary, misses and
returned entries. -/

namespace Sys2Proof.Machine

variable {s t u : State}

/-! ### What an event of the link leaves as it is -/

/-- From `s` to `t` only dispatch has acted, with its parameters unchanged and nothing taken from what is staged: beside the bridges, the
queue and the engine only records, counters and causes have changed. -/
structure State.LinkOnly (s t : State) : Prop where
  lcu : t.lcu = s.lcu
  fdu : t.fdu = s.fdu
  ppl : t.ppl = s.ppl
  flight : t.tru.flight = s.tru.flight
  mask : t.cdu.mask = s.cdu.mask
  link : t.cdu.link = s.cdu.link
  missTol : t.cdu.missTol = s.cdu.missTol
  stagedLink : t.cdu.stagedLink = s.cdu.stagedLink
  newMask : t.cdu.newMask = s.cdu.newMask

theorem State.LinkOnly.refl (s : State) : s.LinkOnly s := ⟨rfl, rfl, rfl, rfl, rfl, rfl, rfl, rfl, rfl⟩

theorem State.LinkOnly.trans (h : s.LinkOnly t) (h' : t.LinkOnly u) : s.LinkOnly u where
  lcu := h'.lcu.trans h.lcu
  fdu := h'.fdu.trans h.fdu
  ppl := h'.ppl.trans h.ppl
  flight := h'.flight.trans h.flight
  mask := h'.mask.trans h.mask
  link := h'.link.trans h.link
  missTol := h'.missTol.trans h.missTol
  stagedLink := h'.stagedLink.trans h.stagedLink
  newMask := h'.newMask.trans h.newMask

theorem State.Bookkeeps.linkOnly (h : s.Bookkeeps t) : s.LinkOnly t where
  lcu := h.lcu
  fdu := h.fdu
  ppl := h.ppl
  flight := (congrArg Tru.flight h.tru :)
  mask := by rw [h.cdu]
  link := by rw [h.cdu]
  missTol := by rw [h.cdu]
  stagedLink := by rw [h.cdu]
  newMask := by rw [h.cdu]

theorem State.onBridge_linkOnly (b : Fin 4) (f : Bridge → Bridge) (s : State) : s.LinkOnly (s.onBridge b f) :=
  ⟨rfl, rfl, rfl, rfl, rfl, rfl, rfl, rfl, rfl⟩

theorem State.setEntry_linkOnly (seq : Word) (st : EntryState) (s : State) : s.LinkOnly (s.setEntry seq st) :=
  ⟨rfl, rfl, rfl, rfl, rfl, rfl, rfl, rfl, rfl⟩

theorem State.entryOutcome_linkOnly (o : PieceOutcome) (e : Entry) (s : State) : s.LinkOnly (s.entryOutcome o e) := by
  have left : s.LinkOnly { s with cdu.queue := s.cdu.queue.filter fun x => x.piece.seq != e.piece.seq } :=
    ⟨rfl, rfl, rfl, rfl, rfl, rfl, rfl, rfl, rfl⟩
  exact left.trans (State.entryOutcome_bookkeeps o e s).linkOnly

/-! ### The entries -/

/-- From `s` to `t` no piece has left the cut queue or taken an outcome. -/
structure State.SameEntries (s t : State) : Prop where
  pieces : t.cdu.queue.map Entry.piece = s.cdu.queue.map Entry.piece
  outcomes : t.sac.counters.outcomes = s.sac.counters.outcomes
  grades : t.sac.counters.grades = s.sac.counters.grades
  produced : (t.channel 1).produced = (s.channel 1).produced

/-- From `s` to `t` the piece of one entry has left the queue with an outcome (R104). -/
structure State.TakesEntry (e : Entry) (o : Fin 4) (s t : State) : Prop where
  pieces : t.cdu.queue.map Entry.piece = (s.cdu.queue.map Entry.piece).filter (fun p => p.seq != e.piece.seq)
  outcomes : t.sac.counters.outcomes = bump s.sac.counters.outcomes o 1
  grades : t.sac.counters.grades = bump s.sac.counters.grades e.piece.grade.code 1
  produced : (t.channel 1).produced = (s.channel 1).produced + 1

theorem State.SameEntries.refl (s : State) : s.SameEntries s := ⟨rfl, rfl, rfl, rfl⟩

theorem State.SameEntries.trans (h : s.SameEntries t) (h' : t.SameEntries u) : s.SameEntries u :=
  ⟨h'.pieces.trans h.pieces, h'.outcomes.trans h.outcomes, h'.grades.trans h.grades, h'.produced.trans h.produced⟩

theorem State.onBridge_sameEntries (b : Fin 4) (f : Bridge → Bridge) (s : State) : s.SameEntries (s.onBridge b f) :=
  ⟨rfl, rfl, rfl, rfl⟩

theorem State.endBusy_sameEntries (b : Fin 4) (st : BridgeState) (s : State) : s.SameEntries (s.endBusy b st) := by
  rw [State.endBusy_eq]
  exact s.onBridge_sameEntries b _

theorem map_piece_setState (seq : Word) (st : EntryState) (l : List Entry) :
    (l.map fun x => if x.piece.seq = seq then { x with state := st } else x).map Entry.piece = l.map Entry.piece := by
  rw [List.map_map]
  refine List.map_congr_left fun x _ => ?_
  rw [Function.comp_apply]
  split <;> rfl

theorem State.setEntry_sameEntries (seq : Word) (st : EntryState) (s : State) : s.SameEntries (s.setEntry seq st) :=
  ⟨map_piece_setState seq st s.cdu.queue, rfl, rfl, rfl⟩

theorem State.raise_sameEntries (c : Cause) (s : State) : s.SameEntries (s.raise c) :=
  ⟨by rw [State.raise_cdu], by rw [State.raise_sac], by rw [State.raise_sac], by rw [State.raise_channel]⟩

theorem State.bridgeFaulted_sameEntries (b : Fin 4) (s : State) : s.SameEntries (s.bridgeFaulted b) := by
  have counted : s.SameEntries (s.count fun k => { k with bridgeFaults := bump k.bridgeFaults b 1 }) := ⟨rfl, rfl, rfl, rfl⟩
  exact counted.trans (State.raise_sameEntries .bridgeFault _)

theorem State.entryOutcome_takesEntry (o : PieceOutcome) (e : Entry) (s : State) :
    State.TakesEntry e o.code s (s.entryOutcome o e) := by
  obtain ⟨grades, outcomes, -, -⟩ : (s.entryOutcome o e).sac.counters.grades = _
    ∧ (s.entryOutcome o e).sac.counters.outcomes = _ ∧ _ ∧ _ := State.pieceOutcome_counters ..
  refine ⟨?_, outcomes, grades, State.entryOutcome_produced o s e⟩
  rw [List.filter_map]
  exact congrArg (fun c : Cdu => c.queue.map Entry.piece) (State.entryOutcome_bookkeeps o e s).cdu

theorem State.SameEntries.takes {e : Entry} {o : Fin 4} (h : s.SameEntries t) (h' : State.TakesEntry e o t u) : State.TakesEntry e o s u := by
  refine ⟨?_, ?_, ?_, ?_⟩
  · rw [h'.pieces, h.pieces]
  · rw [h'.outcomes, h.outcomes]
  · rw [h'.grades, h.grades]
  · rw [h'.produced, h.produced]

theorem State.TakesEntry.then {e : Entry} {o : Fin 4} (h : State.TakesEntry e o s t) (h' : t.SameEntries u) : State.TakesEntry e o s u := by
  refine ⟨?_, ?_, ?_, ?_⟩
  · rw [h'.pieces, h.pieces]
  · rw [h'.outcomes, h.outcomes]
  · rw [h'.grades, h.grades]
  · rw [h'.produced, h.produced]

/-! ### The transfer boundary -/

/-- From the end of a transfer `s` to `t`, what the boundary and the close of the event do: they may send a waiting entry, and take and
change nothing else of the queue, the bridges and the counters (R112, R113). -/
structure State.PassesBoundary (s t : State) : Prop where
  linkOnly : s.LinkOnly t
  same : s.SameEntries t
  bridge : ∀ c, t.bridge c = s.bridge c
  sac : t.sac = s.sac
  causes : ∀ i, s.csu.causes.getLsbD i = true → t.csu.causes.getLsbD i = true
  keeps : ∀ x ∈ s.cdu.queue, (∀ y ∈ s.cdu.queue, y.isWaiting = true → y.piece.seq ≠ x.piece.seq) → x ∈ t.cdu.queue
  waits : ∀ (x : Entry) w, { x with state := .waiting w } ∈ s.cdu.queue → ∃ w, { x with state := .waiting w } ∈ t.cdu.queue
  lckHeld : t.cdu.lckHeld = s.cdu.lckHeld

theorem State.PassesBoundary.trans (h : s.PassesBoundary t) (ht : t.cdu.queue = s.cdu.queue) (h' : t.PassesBoundary u) :
    s.PassesBoundary u where
  linkOnly := h.linkOnly.trans h'.linkOnly
  same := h.same.trans h'.same
  bridge c := (h'.bridge c).trans (h.bridge c)
  sac := h'.sac.trans h.sac
  causes i hi := h'.causes i (h.causes i hi)
  keeps x hx hy := h'.keeps x (ht ▸ hx) (ht ▸ hy)
  waits x w hx := h'.waits x w (ht ▸ hx)
  lckHeld := h'.lckHeld.trans h.lckHeld

theorem State.passesBoundary_of_cdu (c : Cdu) (hq : c.queue = s.cdu.queue) (hb : c.bridges = s.cdu.bridges) (hm : c.mask = s.cdu.mask)
    (hl : c.link = s.cdu.link) (ht : c.missTol = s.cdu.missTol) (hs : c.stagedLink = s.cdu.stagedLink) (hn : c.newMask = s.cdu.newMask)
    (hh : c.lckHeld = s.cdu.lckHeld) : s.PassesBoundary { s with cdu := c } where
  linkOnly := ⟨rfl, rfl, rfl, rfl, hm, hl, ht, hs, hn⟩
  same := ⟨by rw [hq], rfl, rfl, rfl⟩
  bridge := State.bridge_congr hb
  sac := rfl
  causes _ h := h
  keeps x hx _ := hq ▸ hx
  waits x w hx := ⟨w, hq ▸ hx⟩
  lckHeld := hh

theorem State.mem_of_cutReady {e : Entry} {b : Fin 4} (h : s.cutReady = some (e, b)) : e ∈ s.cdu.queue ∧ e.isWaiting = true := by
  unfold State.cutReady State.dueEntry at h
  split at h
  · next e' b' due _ =>
    obtain ⟨rfl, -⟩ := Prod.mk.inj (Option.some.inj h)
    split at due
    · next x head =>
      split at due
      · obtain rfl := Option.some.inj due
        exact ⟨List.mem_of_find?_eq_some head, List.find?_some head⟩
      · exact nomatch due
    · exact nomatch due
  · exact nomatch h

/-- A CUT transfer sends one waiting entry (R113). -/
theorem State.startCut_passesBoundary {e : Entry} {b : Fin 4} (he : e ∈ s.cdu.queue) (hw : e.isWaiting = true) :
    s.PassesBoundary (s.startCut e b) where
  linkOnly := ⟨rfl, rfl, rfl, rfl, rfl, rfl, rfl, rfl, rfl⟩
  same := ⟨map_piece_setState _ _ _, rfl, rfl, rfl⟩
  bridge _ := rfl
  sac := rfl
  causes _ h := h
  keeps x hx hy := List.mem_map.mpr ⟨x, hx, if_neg (hy e he hw).symm⟩
  waits x w hx := by
    by_cases hs : x.piece.seq = e.piece.seq
    · exact ⟨true, List.mem_map.mpr ⟨_, hx, if_pos hs⟩⟩
    · exact ⟨w, List.mem_map.mpr ⟨_, hx, if_neg hs⟩⟩
  lckHeld := rfl

theorem State.startRound_passesBoundary (s : State) : s.PassesBoundary s.startRound ∧ s.startRound.cdu.engine ≠ .stuck := by
  unfold State.startRound
  dsimp only
  split
  · exact ⟨State.passesBoundary_of_cdu _ rfl rfl rfl rfl rfl rfl rfl rfl, nofun⟩
  · exact ⟨State.passesBoundary_of_cdu _ rfl rfl rfl rfl rfl rfl rfl rfl, nofun⟩

theorem State.chooseNext_passesBoundary (s : State) : s.PassesBoundary s.chooseNext ∧ s.chooseNext.cdu.engine ≠ .stuck := by
  obtain ⟨t, ht⟩ : ∃ t, t = if s.cdu.gapRunning = false ∧ s.nextVisit = none then s.startGap else s := ⟨_, rfl⟩
  have begun : s.PassesBoundary t ∧ t.cdu.queue = s.cdu.queue ∧ (t.cdu.gapRunning = false → t.nextVisit ≠ none) := by
    subst ht
    split
    · exact ⟨State.passesBoundary_of_cdu _ rfl rfl rfl rfl rfl rfl rfl rfl, rfl, nofun⟩
    · next hn => exact ⟨State.passesBoundary_of_cdu s.cdu rfl rfl rfl rfl rfl rfl rfl rfl, rfl, fun hg h => hn ⟨hg, h⟩⟩
  obtain ⟨pass, queue, visit⟩ := begun
  unfold State.chooseNext
  split
  · exact ⟨State.passesBoundary_of_cdu _ rfl rfl rfl rfl rfl rfl rfl rfl, nofun⟩
  · dsimp only
    rw [← ht]
    split
    · next e b ready =>
      obtain ⟨he, hw⟩ := State.mem_of_cutReady ready
      exact ⟨pass.trans queue (State.startCut_passesBoundary he hw), nofun⟩
    · split
      · split
        · obtain ⟨round, engine⟩ := t.startRound_passesBoundary
          exact ⟨pass.trans queue round, engine⟩
        · exact ⟨pass.trans queue (State.passesBoundary_of_cdu _ rfl rfl rfl rfl rfl rfl rfl rfl), nofun⟩
      · next hg =>
        split
        · exact ⟨pass.trans queue (State.passesBoundary_of_cdu _ rfl rfl rfl rfl rfl rfl rfl rfl), nofun⟩
        · next none => exact absurd none (visit ((Bool.not_eq_true _).mp hg))

theorem State.takeLink_of_none (hs : s.cdu.stagedLink = none) (hn : s.cdu.newMask = none) : s.takeLink = s := by
  unfold State.takeLink
  rw [hs]
  dsimp only
  rw [hn]

theorem State.PassesBoundary.finish (h : s.PassesBoundary t) : s.PassesBoundary t.finish where
  linkOnly := h.linkOnly.trans ⟨by simp, by simp, by simp, by simp, by simp, by simp, by simp, by simp, by simp⟩
  same := h.same.trans ⟨by simp, by simp, by simp, by simp⟩
  bridge c := (State.finish_bridge _ _).trans (h.bridge c)
  sac := (State.finish_sac _).trans h.sac
  causes i hi := State.finish_causes (h.causes i hi)
  keeps x hx hy := by
    rw [State.finish_cdu]
    exact h.keeps x hx hy
  waits x w hx := by
    rw [State.finish_cdu]
    exact h.waits x w hx
  lckHeld := by rw [State.finish_cdu, h.lckHeld]

/-- With nothing waiting for it the boundary only lets the engine go on. -/
theorem State.boundary_passes (hs : s.cdu.stagedLink = none) (hn : s.cdu.newMask = none) : s.PassesBoundary s.boundary.finish := by
  rw [State.boundary, State.takeLink_of_none hs hn]
  exact s.chooseNext_passesBoundary.1.finish

/-! ### Misses -/

/-- A miss charged against a bridge, before what the third one does (R110). -/
def State.missCounted (b : Fin 4) (s : State) : State :=
  (s.onBridge b fun x => { x with misses := min 3 (x.misses + 1) }).count fun k => { k with bridgeMisses := bump k.bridgeMisses b 1 }

/-- A bridge after a miss (R107, R110). -/
def Bridge.missed (enabled : Bool) (x : Bridge) : Bridge :=
  let y := { x with misses := min 3 (x.misses + 1) }
  if y.misses < 3 then y
  else
    match x.state with
    | .offline => y
    | .disabled => y
    | .busy _ _ => y.freed enabled .offline
    | .idle => { y with state := .offline }
    | .notReady => { y with state := .offline }
    | .fault => { y with state := .offline }

theorem State.missCounted_bridge (b : Fin 4) (s : State) :
    (s.missCounted b).bridge b = { s.bridge b with misses := min 3 ((s.bridge b).misses + 1) } :=
  State.onBridge_bridge_same s b fun x => { x with misses := min 3 (x.misses + 1) }

theorem State.missCounted_bridge_ne {b c : Fin 4} (h : c ≠ b) (s : State) : (s.missCounted b).bridge c = s.bridge c :=
  State.onBridge_bridge_ne s (fun x => { x with misses := min 3 (x.misses + 1) }) h

theorem State.missCounted_linkOnly (b : Fin 4) (s : State) : s.LinkOnly (s.missCounted b) := ⟨rfl, rfl, rfl, rfl, rfl, rfl, rfl, rfl, rfl⟩

theorem State.missCounted_sameEntries (b : Fin 4) (s : State) : s.SameEntries (s.missCounted b) := ⟨rfl, rfl, rfl, rfl⟩

/-- Fewer than three misses are counted only (R110). -/
theorem State.chargeMiss_of_few {b : Fin 4} (h : (s.bridge b).misses < 2) : s.chargeMiss b = s.missCounted b := by
  have few : ((s.missCounted b).bridge b).misses < 3 := by
    rw [State.missCounted_bridge]
    exact Nat.lt_of_le_of_lt (Nat.min_le_right _ _) (Nat.succ_lt_succ h)
  exact if_pos few

/-- What the third miss does beside the counting (R110). -/
def State.thirdMiss (b : Fin 4) (s : State) : State :=
  match (s.bridge b).state with
  | .offline => s
  | .disabled => s
  | .busy _ piece =>
    let s := (s.endBusy b .offline).raise .bridgeFault
    match s.entryOf piece with
    | some e => s.entryOutcome .faulted e
    | none => s
  | .idle => (s.setBridge b .offline).raise .bridgeFault
  | .notReady => (s.setBridge b .offline).raise .bridgeFault
  | .fault => (s.setBridge b .offline).raise .bridgeFault

theorem State.chargeMiss_of_third {b : Fin 4} (h : 2 ≤ (s.bridge b).misses) : s.chargeMiss b = (s.missCounted b).thirdMiss b := by
  have many : ¬((s.missCounted b).bridge b).misses < 3 := by
    rw [State.missCounted_bridge]
    exact Nat.not_lt.mpr (Nat.le_min.mpr ⟨Nat.le_refl 3, Nat.succ_le_succ h⟩)
  exact if_neg many

theorem State.entryOf_congr (h : t.cdu.queue = s.cdu.queue) (p : Word) : t.entryOf p = s.entryOf p := by
  rw [State.entryOf, State.entryOf, h]

/-- A bridge goes down, with BRIDGE_FAULT raised. -/
def State.bridgeDown (b : Fin 4) (f : Bridge → Bridge) (s : State) : State := (s.onBridge b f).raise .bridgeFault

/-- The third miss of a BUSY bridge, before its piece is FAULTED. -/
def State.orderLost (b : Fin 4) (s : State) : State := s.bridgeDown b (Bridge.freed (s.cdu.mask.getLsbD b.val) .offline)

theorem State.orderLost_eq (b : Fin 4) (s : State) : (s.endBusy b .offline).raise .bridgeFault = s.orderLost b := by
  rw [State.endBusy_eq]
  rfl

theorem State.bridgeDown_bridge (b : Fin 4) (f : Bridge → Bridge) (s : State) : (s.bridgeDown b f).bridge b = f (s.bridge b) :=
  (State.raise_bridge _ _ b).trans (State.onBridge_bridge_same s b f)

theorem State.bridgeDown_bridge_ne {b c : Fin 4} (h : c ≠ b) (f : Bridge → Bridge) (s : State) :
    (s.bridgeDown b f).bridge c = s.bridge c :=
  (State.raise_bridge _ _ c).trans (State.onBridge_bridge_ne s f h)

theorem State.bridgeDown_linkOnly (b : Fin 4) (f : Bridge → Bridge) (s : State) : s.LinkOnly (s.bridgeDown b f) :=
  (s.onBridge_linkOnly b f).trans (State.raise_bookkeeps .bridgeFault (s.onBridge b f)).linkOnly

theorem State.bridgeDown_sameEntries (b : Fin 4) (f : Bridge → Bridge) (s : State) : s.SameEntries (s.bridgeDown b f) :=
  (s.onBridge_sameEntries b f).trans (State.raise_sameEntries .bridgeFault (s.onBridge b f))

theorem State.bridgeDown_sac (b : Fin 4) (f : Bridge → Bridge) (s : State) : (s.bridgeDown b f).sac = s.sac := State.raise_sac _ _

theorem State.bridgeDown_causes (b : Fin 4) (f : Bridge → Bridge) (s : State) : (s.bridgeDown b f).csu.causes.getLsbD 13 = true :=
  State.raise_bit .bridgeFault _

theorem State.thirdMiss_of_gone {b : Fin 4} (h : (s.bridge b).state = .offline ∨ (s.bridge b).state = .disabled) : s.thirdMiss b = s := by
  unfold State.thirdMiss
  rcases h with h | h
  · rw [h]
  · rw [h]

theorem State.thirdMiss_of_up {b : Fin 4}
    (h : (s.bridge b).state = .idle ∨ (s.bridge b).state = .notReady ∨ (s.bridge b).state = .fault) :
    s.thirdMiss b = s.bridgeDown b (Bridge.freed true .offline) := by
  unfold State.thirdMiss
  rcases h with h | h | h
  · rw [h]
    rfl
  · rw [h]
    rfl
  · rw [h]
    rfl

theorem State.orderLost_queue (b : Fin 4) (s : State) : (s.orderLost b).cdu.queue = s.cdu.queue := by
  rw [State.orderLost, State.bridgeDown, State.raise_cdu]
  rfl

theorem State.thirdMiss_of_busy {b : Fin 4} {tag : Byte} {piece : Word} (h : (s.bridge b).state = .busy tag piece) :
    s.thirdMiss b = match s.entryOf piece with
      | some e => (s.orderLost b).entryOutcome .faulted e
      | none => s.orderLost b := by
  unfold State.thirdMiss
  rw [h]
  dsimp only
  rw [State.orderLost_eq, State.entryOf_congr (State.orderLost_queue b s)]

theorem State.entryOutcome_bridge (o : PieceOutcome) (e : Entry) (s : State) (c : Fin 4) : (s.entryOutcome o e).bridge c = s.bridge c :=
  State.bridge_congr (congrArg Cdu.bridges (State.entryOutcome_bookkeeps o e s).cdu :) c

/-- What a miss charged against bridge `b` changes (R107, R110). -/
structure State.Misses (b : Fin 4) (s t : State) : Prop where
  linkOnly : s.LinkOnly t
  bridge : t.bridge b = (s.bridge b).missed (s.cdu.mask.getLsbD b.val)
  others : ∀ c, c ≠ b → t.bridge c = s.bridge c
  counted : t.sac.counters.bridgeMisses = bump s.sac.counters.bridgeMisses b 1

theorem State.Misses.outcome {b : Fin 4} (h : State.Misses b s t) (o : PieceOutcome) (e : Entry) : State.Misses b s (t.entryOutcome o e) where
  linkOnly := h.linkOnly.trans (t.entryOutcome_linkOnly o e)
  bridge := (State.entryOutcome_bridge o e t b).trans h.bridge
  others c hc := (State.entryOutcome_bridge o e t c).trans (h.others c hc)
  counted := by
    obtain ⟨-, -, -, misses⟩ : _ ∧ _ ∧ _ ∧ (t.entryOutcome o e).sac.counters.bridgeMisses = _ := State.pieceOutcome_counters ..
    exact misses.trans h.counted

theorem State.missCounted_misses {b : Fin 4}
    (h : (s.bridge b).missed (s.cdu.mask.getLsbD b.val) = { s.bridge b with misses := min 3 ((s.bridge b).misses + 1) }) :
    State.Misses b s (s.missCounted b) where
  linkOnly := s.missCounted_linkOnly b
  bridge := (s.missCounted_bridge b).trans h.symm
  others _ hc := s.missCounted_bridge_ne hc
  counted := rfl

theorem State.bridgeDown_misses {b : Fin 4} {f : Bridge → Bridge}
    (h : (s.bridge b).missed (s.cdu.mask.getLsbD b.val) = f { s.bridge b with misses := min 3 ((s.bridge b).misses + 1) }) :
    State.Misses b s ((s.missCounted b).bridgeDown b f) where
  linkOnly := (s.missCounted_linkOnly b).trans (State.bridgeDown_linkOnly b f _)
  bridge := by rw [State.bridgeDown_bridge, State.missCounted_bridge, h]
  others c hc := (State.bridgeDown_bridge_ne hc f _).trans (s.missCounted_bridge_ne hc)
  counted := by
    rw [State.bridgeDown_sac]
    rfl

theorem Bridge.missed_of_few {x : Bridge} (h : x.misses < 2) (bit : Bool) : x.missed bit = { x with misses := min 3 (x.misses + 1) } :=
  if_pos (Nat.lt_of_le_of_lt (Nat.min_le_right _ _) (Nat.succ_lt_succ h))

theorem not_few_of_two_le {m : Nat} (h : 2 ≤ m) : ¬min 3 (m + 1) < 3 :=
  Nat.not_lt.mpr (Nat.le_min.mpr ⟨Nat.le_refl 3, Nat.succ_le_succ h⟩)

theorem Bridge.missed_of_gone {x : Bridge} (h : 2 ≤ x.misses) (hs : x.state = .offline ∨ x.state = .disabled) (bit : Bool) :
    x.missed bit = { x with misses := min 3 (x.misses + 1) } := by
  obtain ⟨state, misses, status, tag, code⟩ := x
  rcases hs with rfl | rfl
  · exact if_neg (not_few_of_two_le h)
  · exact if_neg (not_few_of_two_le h)

theorem Bridge.missed_of_up {x : Bridge} (h : 2 ≤ x.misses) (hs : x.state = .idle ∨ x.state = .notReady ∨ x.state = .fault) (bit : Bool) :
    x.missed bit = { x with state := .offline, misses := min 3 (x.misses + 1) } := by
  obtain ⟨state, misses, status, tag, code⟩ := x
  rcases hs with rfl | rfl | rfl
  · exact if_neg (not_few_of_two_le h)
  · exact if_neg (not_few_of_two_le h)
  · exact if_neg (not_few_of_two_le h)

theorem Bridge.missed_of_busy {x : Bridge} (h : 2 ≤ x.misses) {tag : Byte} {piece : Word} (hs : x.state = .busy tag piece) (bit : Bool) :
    x.missed bit = Bridge.freed bit .offline { x with misses := min 3 (x.misses + 1) } := by
  obtain ⟨state, misses, status, last, code⟩ := x
  obtain rfl := hs
  exact if_neg (not_few_of_two_le h)

theorem State.chargeMiss_misses (b : Fin 4) (s : State) : State.Misses b s (s.chargeMiss b) := by
  by_cases few : (s.bridge b).misses < 2
  · rw [State.chargeMiss_of_few few]
    exact State.missCounted_misses (Bridge.missed_of_few few _)
  · have many := Nat.not_lt.mp few
    have counted : ((s.missCounted b).bridge b).state = (s.bridge b).state := by rw [State.missCounted_bridge]
    have gone : (s.bridge b).state = .offline ∨ (s.bridge b).state = .disabled → State.Misses b s (s.chargeMiss b) := by
      intro hs
      rw [State.chargeMiss_of_third many, State.thirdMiss_of_gone (by rwa [counted])]
      exact State.missCounted_misses (Bridge.missed_of_gone many hs _)
    have up : (s.bridge b).state = .idle ∨ (s.bridge b).state = .notReady ∨ (s.bridge b).state = .fault →
        State.Misses b s (s.chargeMiss b) := by
      intro hs
      rw [State.chargeMiss_of_third many, State.thirdMiss_of_up (by rwa [counted])]
      exact State.bridgeDown_misses (Bridge.missed_of_up many hs _)
    cases hs : (s.bridge b).state with
    | offline => exact gone (.inl hs)
    | disabled => exact gone (.inr hs)
    | idle => exact up (.inl hs)
    | notReady => exact up (.inr (.inl hs))
    | fault => exact up (.inr (.inr hs))
    | busy tag piece =>
      have lost : State.Misses b s ((s.missCounted b).orderLost b) := State.bridgeDown_misses (Bridge.missed_of_busy many hs _)
      rw [State.chargeMiss_of_third many, State.thirdMiss_of_busy (counted.trans hs)]
      split
      · exact lost.outcome _ _
      · exact lost

end Sys2Proof.Machine
end

section
/-! PROOFS. The end of a CUT transfer (O34) and an abandoned transfer (O37). -/

namespace Sys2Proof.Machine

variable {s t u : State}

/-! ### The bytes of a response (R115, 11.7) -/

/-- A good response has sum 0 and defined codes; the bytes of an absent bridge, all 0xFF, have another sum. -/
theorem judge_eq_good_iff {x y : Byte} {rest : List Byte} {d : Bool} (short : rest.length ≤ 1) :
    judge (x :: y :: rest) d = .good ↔ (((x :: y :: rest).map BitVec.toNat).sum % 256 = 0 ∧ d = true) := by
  unfold judge
  by_cases sum : ((x :: y :: rest).map BitVec.toNat).sum % 256 = 0
  · have present : ¬(x :: y :: rest).all (· == 0xFF) = true := by
      intro absent
      rw [List.all_eq_true] at absent
      have ones : ∀ z ∈ x :: y :: rest, z = 0xFF := fun z hz => eq_of_beq (absent z hz)
      have same : x :: y :: rest = List.replicate (rest.length + 2) 0xFF := List.eq_replicate_iff.mpr ⟨rfl, ones⟩
      rw [same, List.map_replicate, List.sum_replicate_nat] at sum
      change (rest.length + 2) * 255 % 256 = 0 at sum
      omega
    rw [if_neg present, if_neg (not_not_intro sum)]
    cases d with
    | true => exact ⟨fun _ => ⟨sum, rfl⟩, fun _ => rfl⟩
    | false => exact ⟨nofun, fun h => absurd h.2 nofun⟩
  · refine ⟨fun h => ?_, fun h => absurd h.1 sum⟩
    rw [if_pos sum] at h
    split at h
    · exact absurd h nofun
    · exact absurd h nofun

/-- Any bytes but the two good responses leave the accept uncertain (R118). -/
theorem cutEndOf_of_other {code check : Byte} (ha : ¬(code = 0x06 ∧ check = 0xFA)) (hr : ¬(code = 0x15 ∧ check = 0xEB)) :
    cutEndOf code check = .uncertain := by
  unfold cutEndOf
  cases hj : judge [code, check] (code == acceptCode || code == refuseCode) with
  | absent => rfl
  | garbled => rfl
  | good =>
    exfalso
    obtain ⟨sum, defined⟩ := (judge_eq_good_iff (rest := []) (Nat.zero_le 1)).mp hj
    have sum' : (code.toNat + check.toNat) % 256 = 0 := by simpa using sum
    rcases Bool.or_eq_true_iff.mp defined with h | h
    · have hc : code = 0x06 := eq_of_beq h
      subst hc
      exact ha ⟨rfl, BitVec.eq_of_toNat_eq (by change check.toNat = 250; have := check.isLt; change (6 + _) % 256 = 0 at sum'; omega)⟩
    · have hc : code = 0x15 := eq_of_beq h
      subst hc
      exact hr ⟨rfl, BitVec.eq_of_toNat_eq (by change check.toNat = 235; have := check.isLt; change (21 + _) % 256 = 0 at sum'; omega)⟩

/-! ### Entries that wait again -/

/-- The miss test of an entry changes nothing before F + miss_tol (R105). -/
theorem State.missTestOn_of_early {p : Word} (h : ∀ e ∈ s.cdu.queue, e.piece.seq = p → s.pastMiss e = false) : s.missTestOn p = s := by
  unfold State.missTestOn
  split
  · next e he =>
    have seq : (e.piece.seq == p) = true := List.find?_some (p := fun x : Entry => x.piece.seq == p) he
    rw [h e (List.mem_of_find?_eq_some he) (eq_of_beq seq), Bool.and_false, if_neg Bool.false_ne_true]
  · rfl

/-! ### The end of a CUT transfer -/

theorem State.issue_linkOnly (b : Fin 4) (piece : Word) (tag : Byte) (s : State) : s.LinkOnly (s.issue b piece tag) :=
  (s.setEntry_linkOnly piece _).trans (State.onBridge_linkOnly b _ _)

theorem State.issue_sameEntries (b : Fin 4) (piece : Word) (tag : Byte) (s : State) : s.SameEntries (s.issue b piece tag) :=
  (s.setEntry_sameEntries piece _).trans (State.onBridge_sameEntries b _ _)

theorem State.issue_bridge (b : Fin 4) (piece : Word) (tag : Byte) (s : State) :
    (s.issue b piece tag).bridge b = { s.bridge b with state := .busy tag piece } :=
  State.onBridge_bridge_same _ b _

theorem State.issue_bridge_ne {b c : Fin 4} (h : c ≠ b) (piece : Word) (tag : Byte) (s : State) :
    (s.issue b piece tag).bridge c = s.bridge c :=
  State.onBridge_bridge_ne _ _ h

theorem exec_cutTransferEnd {code check : Byte} {b : Fin 4} {piece : Word} {tag : Byte} {lane : Nat} {sent : Bool}
    (hs : s.settled = true) (he : s.cdu.engine = .cutXfer b piece tag lane sent) (begun : sent = true ∨ s.cdu.lckHeld = false) :
    exec (.cutTransferEnd code check) s =
      .next ((s.clearOutputs.cutEnds (cutEndOf code check) b piece tag).boundary.finish) := by
  have transfer : s.clearOutputs.transferBegun sent = true := by
    rw [State.transferBegun, Bool.or_eq_true_iff, Bool.not_eq_true']
    exact begun
  have ends : s.clearOutputs.cutTransferEnd code check = (s.clearOutputs.cutEnds (cutEndOf code check) b piece tag).boundary := by
    unfold State.cutTransferEnd
    rw [show s.clearOutputs.cdu.engine = _ from he]
    exact if_pos transfer
  rw [exec, execCutTransferEnd, command_next hs, ends]

/-- What the end of a CUT transfer changes before the boundary, but for the addressed bridge and the state of its entry. -/
structure State.CutEnded (b : Fin 4) (s t : State) : Prop where
  linkOnly : s.LinkOnly t
  same : s.SameEntries t
  others : ∀ c, c ≠ b → t.bridge c = s.bridge c

/-- The entry of an order taken as issued stays ISSUED over the boundary (R106). -/
theorem State.PassesBoundary.issued {b : Fin 4} {piece : Word} {tag : Byte} (h : t.PassesBoundary u)
    (hq : t.cdu.queue = (s.issue b piece tag).cdu.queue) {x : Entry} (hx : x ∈ s.cdu.queue) (hp : x.piece.seq = piece) :
    { x with state := .issued b tag s.lcu.counter } ∈ u.cdu.queue := by
  refine h.keeps _ ?_ fun y hy hw => ?_
  · rw [hq]
    exact List.mem_map.mpr ⟨x, hx, if_pos hp⟩
  · rw [hq] at hy
    obtain ⟨z, -, rfl⟩ := List.mem_map.mp hy
    intro hseq
    by_cases hz : z.piece.seq = piece
    · rw [if_pos hz] at hw
      exact absurd hw nofun
    · rw [if_neg hz] at hseq
      exact hz (hseq.trans hp)

/-- Settles O34. -/
theorem cutTransferEnds : Obligations.CutTransferEnds := by
  intro s code check b piece tag lane sent hs he begun staged mask few early accepted refused
  refine ⟨_, exec_cutTransferEnd hs he begun, ?_⟩
  obtain ⟨v, hv⟩ : ∃ v, v = s.clearOutputs := ⟨_, rfl⟩
  have issued := State.CutEnded.mk (b := b) (State.issue_linkOnly b piece tag v) (State.issue_sameEntries b piece tag v)
    fun c hc => State.issue_bridge_ne hc piece tag v
  have vbridge : ∀ c, v.bridge c = s.bridge c := by rw [hv]; exact fun _ => rfl
  have vqueue : v.cdu.queue = s.cdu.queue := by rw [hv]; rfl
  have vcounter : v.lcu.counter = s.lcu.counter := by rw [hv]; rfl
  have frame : ∀ w : State, State.CutEnded b v w → w.PassesBoundary w.boundary.finish ∧
      w.boundary.finish.cdu.queue.map Entry.piece = s.cdu.queue.map Entry.piece
      ∧ (∀ c, c ≠ b → w.boundary.finish.bridge c = s.bridge c)
      ∧ w.boundary.finish.sac.counters.outcomes = s.sac.counters.outcomes
      ∧ w.boundary.finish.sac.counters.grades = s.sac.counters.grades
      ∧ w.boundary.finish.cdu.mask = s.cdu.mask ∧ w.boundary.finish.cdu.link = s.cdu.link
      ∧ w.boundary.finish.lcu = { s.lcu with ltrig := false } ∧ w.boundary.finish.fdu = s.fdu
      ∧ w.boundary.finish.ppl = s.ppl ∧ w.boundary.finish.tru.flight = s.tru.flight := by
    intro w h
    have pass := State.boundary_passes (h.linkOnly.stagedLink.trans (by rw [hv]; exact staged)) (h.linkOnly.newMask.trans (by rw [hv]; exact mask))
    have all := h.linkOnly.trans pass.linkOnly
    have same := h.same.trans pass.same
    subst hv
    exact ⟨pass, same.pieces, fun c hc => (pass.bridge c).trans (h.others c hc), same.outcomes, same.grades, all.mask, all.link, all.lcu,
      all.fdu, all.ppl, all.flight⟩
  by_cases ha : accepted
  · have nr : ¬refused := fun hr => absurd (ha.1.symm.trans hr.1) (by decide)
    have ends : v.cutEnds (cutEndOf code check) b piece tag = (v.issue b piece tag).clearMisses b := by rw [ha.1, ha.2]; rfl
    obtain ⟨pass, pieces, others, rest⟩ := frame ((v.issue b piece tag).clearMisses b)
      ⟨issued.linkOnly.trans (State.onBridge_linkOnly b _ _), issued.same.trans (State.onBridge_sameEntries b _ _),
        fun c hc => (State.onBridge_bridge_ne _ _ hc).trans (issued.others c hc)⟩
    rw [← hv, ends]
    refine ⟨fun _ => ?_, fun hr => absurd hr nr, fun na => absurd ha na, fun _ x hx hp => ?_, fun hr => absurd hr nr, pieces, others, rest⟩
    · rw [pass.bridge, State.clearMisses, State.onBridge_bridge_same, State.issue_bridge, vbridge]
    · rw [← vcounter]
      exact pass.issued rfl (vqueue ▸ hx) hp
  · by_cases hr : refused
    · have ends : v.cutEnds (cutEndOf code check) b piece tag =
          ((v.setEntry piece (.waiting false)).setBridge b .notReady).clearMisses b := by
        rw [hr.1, hr.2]
        refine State.missTestOn_of_early fun e hmem hp => ?_
        obtain ⟨x, hx, hpiece⟩ : ∃ x ∈ v.cdu.queue, x.piece = e.piece := by
          have mem : e.piece ∈ (v.setEntry piece (.waiting false)).cdu.queue.map Entry.piece := List.mem_map_of_mem hmem
          rw [(v.setEntry_sameEntries piece _).pieces] at mem
          exact List.mem_map.mp mem
        have missed := early x (vqueue ▸ hx) (by rw [hpiece]; exact hp)
        rw [hpiece] at missed
        rw [hv]
        exact missed
      obtain ⟨pass, pieces, others, rest⟩ := frame (((v.setEntry piece (.waiting false)).setBridge b .notReady).clearMisses b)
        ⟨((v.setEntry_linkOnly piece _).trans (State.onBridge_linkOnly b _ _)).trans (State.onBridge_linkOnly b _ _),
          ((v.setEntry_sameEntries piece _).trans (State.onBridge_sameEntries b _ _)).trans (State.onBridge_sameEntries b _ _),
          fun c hc => (State.onBridge_bridge_ne _ _ hc).trans (State.onBridge_bridge_ne _ _ hc)⟩
      rw [← hv, ends]
      refine ⟨fun h => absurd h ha, fun _ => ?_, fun _ h => absurd hr h, fun h => absurd hr h, fun _ x hx hp => ?_, pieces, others, rest⟩
      · rw [pass.bridge, State.clearMisses, State.onBridge_bridge_same, State.setBridge, State.onBridge_bridge_same, ← vbridge]
        rfl
      · exact pass.waits x false (List.mem_map.mpr ⟨x, vqueue ▸ hx, if_pos hp⟩)
    · have low : ((v.issue b piece tag).bridge b).misses < 2 := by
        rw [State.issue_bridge, vbridge]
        exact few
      have ends : v.cutEnds (cutEndOf code check) b piece tag = (v.issue b piece tag).missCounted b := by
        rw [cutEndOf_of_other ha hr]
        exact State.chargeMiss_of_few low
      obtain ⟨pass, pieces, others, rest⟩ := frame ((v.issue b piece tag).missCounted b)
        ⟨issued.linkOnly.trans (State.missCounted_linkOnly b _), issued.same.trans (State.missCounted_sameEntries b _),
          fun c hc => (State.missCounted_bridge_ne hc _).trans (issued.others c hc)⟩
      rw [← hv, ends]
      refine ⟨fun h => absurd h ha, fun h => absurd h hr, fun _ _ => ⟨?_, ?_⟩, fun _ x hx hp => ?_, fun h => absurd h hr, pieces, others,
        rest⟩
      · have few' : min 3 ((s.bridge b).misses + 1) = (s.bridge b).misses + 1 := by omega
        rw [pass.bridge, State.missCounted_bridge, State.issue_bridge, vbridge, few']
      · rw [pass.sac, hv]
        exact bump_same _ b 1
      · rw [← vcounter]
        exact pass.issued rfl (vqueue ▸ hx) hp

/-! ### Abandonment: the bridge (R107, R110, R117) -/

/-- The bridge has an order and its enable bit is clear: it is lost with the transfer (R107). -/
def Bridge.losesOrder (enabled : Bool) (x : Bridge) : Prop := (∃ tag piece, x.state = .busy tag piece) ∧ enabled = false

theorem Bridge.atStuck_of_disabled {x : Bridge} (h : x.state = .disabled) (bit : Bool) : x.atStuck bit = x := by
  obtain ⟨state, misses, status, tag, code⟩ := x
  obtain rfl := h
  rfl

theorem Bridge.atStuck_of_lost {x : Bridge} {bit : Bool} (h : x.losesOrder bit) :
    x.atStuck bit = { x with state := .disabled, misses := 0 } := by
  obtain ⟨state, misses, status, last, code⟩ := x
  obtain ⟨⟨tag, piece, rfl⟩, rfl⟩ := h
  rfl

theorem Bridge.atStuck_of_kept {x : Bridge} {bit : Bool} (hd : x.state ≠ .disabled) (h : ¬x.losesOrder bit) :
    x.atStuck bit = { x with state := .offline } := by
  obtain ⟨state, misses, status, last, code⟩ := x
  cases state with
  | disabled => exact absurd rfl hd
  | busy tag piece =>
    cases bit with
    | true => rfl
    | false => exact absurd ⟨⟨tag, piece, rfl⟩, rfl⟩ h
  | offline => rfl
  | idle => rfl
  | notReady => rfl
  | fault => rfl

theorem Bridge.atStuck_state (x : Bridge) (bit : Bool) : (x.atStuck bit).state = .offline ∨ (x.atStuck bit).state = .disabled := by
  by_cases hd : x.state = .disabled
  · exact .inr (by rw [Bridge.atStuck_of_disabled hd, hd])
  · by_cases h : x.losesOrder bit
    · exact .inr (by rw [Bridge.atStuck_of_lost h])
    · exact .inl (by rw [Bridge.atStuck_of_kept hd h])

theorem Bridge.missed_of_disabled {x : Bridge} (h : x.state = .disabled) (bit : Bool) :
    x.missed bit = { x with misses := min 3 (x.misses + 1) } := by
  by_cases few : x.misses < 2
  · exact Bridge.missed_of_few few bit
  · exact Bridge.missed_of_gone (Nat.not_lt.mp few) (.inr h) bit

/-- The third miss of a bridge that loses its order (R107). -/
theorem Bridge.missed_of_lost {x : Bridge} {bit : Bool} (many : 2 ≤ x.misses) (h : x.losesOrder bit) :
    x.missed bit = { x with state := .disabled, misses := 0 } := by
  obtain ⟨⟨tag, piece, hs⟩, rfl⟩ := h
  exact Bridge.missed_of_busy many hs false

/-- The third miss of any other bridge that is not DISABLED (R110). -/
theorem Bridge.missed_of_kept {x : Bridge} {bit : Bool} (many : 2 ≤ x.misses) (hd : x.state ≠ .disabled) (h : ¬x.losesOrder bit) :
    x.missed bit = { x with state := .offline, misses := min 3 (x.misses + 1) } := by
  cases hs : x.state with
  | disabled => exact absurd hs hd
  | offline => rw [Bridge.missed_of_gone many (.inl hs), hs]
  | idle => exact Bridge.missed_of_up many (.inl hs) bit
  | notReady => exact Bridge.missed_of_up many (.inr (.inl hs)) bit
  | fault => exact Bridge.missed_of_up many (.inr (.inr hs)) bit
  | busy tag piece =>
    cases bit with
    | true => exact Bridge.missed_of_busy many hs true
    | false => exact absurd ⟨⟨tag, piece, hs⟩, rfl⟩ h

/-- A missed bridge that loses its order, at entry to STUCK. -/
theorem Bridge.missed_atStuck_of_lost {x : Bridge} {bit : Bool} (h : x.losesOrder bit) :
    (x.missed bit).atStuck bit = { x with state := .disabled, misses := 0 } := by
  by_cases few : x.misses < 2
  · rw [Bridge.missed_of_few few]
    exact Bridge.atStuck_of_lost (x := { x with misses := min 3 (x.misses + 1) }) h
  · rw [Bridge.missed_of_lost (Nat.not_lt.mp few) h]
    exact Bridge.atStuck_of_disabled rfl bit

/-- Any other missed bridge that is not DISABLED, at entry to STUCK. -/
theorem Bridge.missed_atStuck_of_kept {x : Bridge} {bit : Bool} (hd : x.state ≠ .disabled) (h : ¬x.losesOrder bit) :
    (x.missed bit).atStuck bit = { x with state := .offline, misses := min 3 (x.misses + 1) } := by
  by_cases few : x.misses < 2
  · rw [Bridge.missed_of_few few]
    exact Bridge.atStuck_of_kept (x := { x with misses := min 3 (x.misses + 1) }) hd h
  · rw [Bridge.missed_of_kept (Nat.not_lt.mp few) hd h]
    rfl

/-! ### Abandonment: the part -/

theorem State.Misses.missTestOn {b : Fin 4} (h : State.Misses b s t) (p : Word) : State.Misses b s (t.missTestOn p) := by
  unfold State.missTestOn
  split
  · split
    · exact h.outcome _ _
    · exact h
  · exact h

/-- The bridge that the abandoned transfer addresses, as the miss finds it: BUSY if the order is taken as issued (R116). -/
def State.atAbandon (s : State) (point : AbandonPoint) (b : Fin 4) : Bridge :=
  match s.cdu.engine, point with
  | .cutXfer _ piece tag _ _, .afterCheck => { s.bridge b with state := .busy tag piece }
  | _, _ => s.bridge b

/-- What an abandoned transfer changes (R116). -/
structure State.Abandons (point : AbandonPoint) (b : Fin 4) (s t : State) : Prop where
  linkOnly : s.LinkOnly t
  bridge : t.bridge b = (s.atAbandon point b).missed (s.cdu.mask.getLsbD b.val)
  others : ∀ c, c ≠ b → t.bridge c = s.bridge c
  counted : t.sac.counters.bridgeMisses = bump s.sac.counters.bridgeMisses b 1

theorem State.abandon_of_poll {b : Fin 4} {sent : Bool} (he : s.cdu.engine = .pollXfer b sent) (point : AbandonPoint) :
    State.Abandons point b s (s.abandon point) := by
  have missed := State.chargeMiss_misses b s
  have state : s.abandon point = (s.chargeMiss b).polled b := by rw [State.abandon, he]
  have bridge : s.atAbandon point b = s.bridge b := by
      unfold State.atAbandon
      rw [he]
  rw [state]
  refine ⟨missed.linkOnly.trans ⟨rfl, rfl, rfl, rfl, rfl, rfl, rfl, rfl, rfl⟩, ?_, missed.others, missed.counted⟩
  rw [bridge]
  exact missed.bridge

theorem State.abandon_of_cut {b : Fin 4} {piece : Word} {tag : Byte} {lane : Nat} {sent : Bool}
    (he : s.cdu.engine = .cutXfer b piece tag lane sent) (point : AbandonPoint) :
    State.Abandons point b s (s.abandon point) := by
  cases point with
  | beforeCheck =>
    have missed := (State.chargeMiss_misses b (s.setEntry piece (.waiting false))).missTestOn piece
    have state : s.abandon .beforeCheck = ((s.setEntry piece (.waiting false)).chargeMiss b).missTestOn piece := by
      rw [State.abandon, he]
      rfl
    have bridge : s.atAbandon .beforeCheck b = s.bridge b := by
      unfold State.atAbandon
      rw [he]
    rw [state]
    refine ⟨(s.setEntry_linkOnly piece _).trans missed.linkOnly, ?_, missed.others, missed.counted⟩
    rw [bridge]
    exact missed.bridge
  | afterCheck =>
    have missed := State.chargeMiss_misses b (s.issue b piece tag)
    have state : s.abandon .afterCheck = (s.issue b piece tag).chargeMiss b := by
      rw [State.abandon, he]
      rfl
    have bridge : s.atAbandon .afterCheck b = (s.issue b piece tag).bridge b := by
      rw [State.issue_bridge]
      unfold State.atAbandon
      rw [he]
    rw [state]
    refine ⟨(s.issue_linkOnly b piece tag).trans missed.linkOnly, ?_, fun c hc => (missed.others c hc).trans (State.issue_bridge_ne hc _ _ _),
      missed.counted⟩
    rw [bridge]
    exact missed.bridge

/-- The state that enters STUCK, before the outcomes of its orders (R117). -/
def State.stuck (s : State) : State :=
  { s with
    cdu.bridges := Vector.ofFn fun b : Fin 4 => (s.bridge b).atStuck (s.cdu.mask.getLsbD b.val)
    cdu.engine := .stuck, cdu.loopPos := 0, cdu.gapRunning := false, cdu.lckHeld := true }

/-- What the entry to STUCK changes, with nothing staged (R117). -/
theorem State.enterStuck_facts (hs : s.cdu.stagedLink = none) (hn : s.cdu.newMask = none) :
    s.LinkOnly s.enterStuck ∧ s.enterStuck.cdu.engine = .stuck ∧ s.enterStuck.cdu.lckHeld = true ∧ s.enterStuck.cdu.loopPos = 0
      ∧ (∀ c, s.enterStuck.bridge c = (s.bridge c).atStuck (s.cdu.mask.getLsbD c.val))
      ∧ (∀ e ∈ s.enterStuck.cdu.queue, e.issued = none)
      ∧ s.enterStuck.csu.causes.getLsbD 13 = true
      ∧ s.enterStuck.sac.counters.bridgeMisses = s.sac.counters.bridgeMisses := by
  obtain ⟨entries, hentries⟩ : ∃ l, l = s.cdu.queue.filter fun e => e.issued.isSome := ⟨_, rfl⟩
  have keeps := (State.foldl_entryOutcome_bookkeeps .faulted entries s.stuck).trans
    (State.raise_bookkeeps .bridgeFault (entries.foldl (State.entryOutcome .faulted) s.stuck))
  obtain ⟨-, misses⟩ := State.foldl_entryOutcome_bridges .faulted entries s.stuck
  have stuck : s.enterStuck = (entries.foldl (State.entryOutcome .faulted) s.stuck).raise .bridgeFault := by
    rw [hentries]
    refine State.takeLink_of_none ?_ ?_
    · rw [← State.stuck, ← hentries]
      exact (congrArg Cdu.stagedLink keeps.cdu :).trans hs
    · rw [← State.stuck, ← hentries]
      exact (congrArg Cdu.newMask keeps.cdu :).trans hn
  rw [stuck]
  refine ⟨State.LinkOnly.trans (t := { s.stuck with cdu.queue := withoutEntries entries s.stuck.cdu.queue })
      ⟨rfl, rfl, rfl, rfl, rfl, rfl, rfl, rfl, rfl⟩ keeps.linkOnly,
    (congrArg Cdu.engine keeps.cdu :), (congrArg Cdu.lckHeld keeps.cdu :), (congrArg Cdu.loopPos keeps.cdu :), fun c => ?_, fun e he => ?_,
    State.raise_bit .bridgeFault _, ?_⟩
  · refine (State.bridge_congr (s := s.stuck) (congrArg Cdu.bridges keeps.cdu :) c).trans ?_
    simp [State.stuck, State.bridge]
  · have left : e ∈ withoutEntries entries s.cdu.queue := 
      Eq.mp (congrArg (e ∈ ·) (congrArg Cdu.queue keeps.cdu :)) he
    obtain ⟨mem, out⟩ := List.mem_filter.mp left
    refine Classical.byContradiction fun issued => ?_
    have taken : e ∈ entries := hentries ▸ List.mem_filter.mpr ⟨mem, Option.isSome_iff_ne_none.mpr issued⟩
    have hit : (entries.any fun x => e.piece.seq == x.piece.seq) = true := List.any_eq_true.mpr ⟨e, taken, beq_self_eq_true _⟩
    rw [hit] at out
    exact absurd out nofun
  · rw [State.raise_sac, misses]
    rfl

/-- The order of the transfer on the link to bridge `b` is taken as issued when it is abandoned (R114, R116). -/
def State.orderUncertain (s : State) (point : AbandonPoint) (b : Fin 4) : Prop :=
  ∃ piece tag lane sent, s.cdu.engine = .cutXfer b piece tag lane sent ∧ point = .afterCheck ∧ (sent = true ∨ s.cdu.lckHeld = false)

/-- The point of abandonment that counts: a transfer whose START mark was never sent has not reached its check byte (R114). -/
def State.effectivePoint (s : State) (point : AbandonPoint) : AbandonPoint :=
  match s.cdu.engine.startSent with
  | some sent => if s.transferBegun sent then point else .beforeCheck
  | none => point

theorem State.transferBegun_iff (sent : Bool) : s.transferBegun sent = true ↔ sent = true ∨ s.cdu.lckHeld = false := by
  rw [State.transferBegun, Bool.or_eq_true_iff, Bool.not_eq_true']

theorem State.atAbandon_of_certain {point : AbandonPoint} {b : Fin 4}
    (he : (∃ sent, s.cdu.engine = .pollXfer b sent) ∨ ∃ piece tag lane sent, s.cdu.engine = .cutXfer b piece tag lane sent)
    (h : ¬s.orderUncertain point b) : s.atAbandon (s.effectivePoint point) b = s.bridge b := by
  unfold State.atAbandon State.effectivePoint
  rcases he with ⟨sent, he⟩ | ⟨piece, tag, lane, sent, he⟩
  · rw [he]
  · have early : (if s.transferBegun sent = true then point else .beforeCheck) = .beforeCheck := by
      by_cases begun : s.transferBegun sent = true
      · rw [if_pos begun]
        cases point with
        | beforeCheck => rfl
        | afterCheck => exact absurd ⟨piece, tag, lane, sent, he, rfl, (State.transferBegun_iff sent).mp begun⟩ h
      · exact if_neg begun
    rw [he]
    dsimp only [Engine.startSent]
    rw [early]

theorem State.atAbandon_of_uncertain {point : AbandonPoint} {b : Fin 4} {piece : Word} {tag : Byte} {lane : Nat} {sent : Bool}
    (he : s.cdu.engine = .cutXfer b piece tag lane sent) (h : s.orderUncertain point b) :
    s.atAbandon (s.effectivePoint point) b = { s.bridge b with state := .busy tag piece } := by
  obtain ⟨piece', tag', lane', sent', he', rfl, begun⟩ := h
  obtain rfl : sent' = sent := (Engine.cutXfer.inj (he'.symm.trans he)).2.2.2.2
  unfold State.atAbandon State.effectivePoint
  rw [he]
  dsimp only [Engine.startSent]
  rw [if_pos ((State.transferBegun_iff sent').mpr begun)]

/-- Where the engine goes when a transfer has been abandoned (R116, R117). -/
def State.afterAbandon (lck : Lck) (s : State) : State :=
  match lck with
  | .seenHigh => State.boundary { s with cdu.lckHeld := false }
  | .stillLow => s.enterStuck

theorem exec_transferAbandon {b : Fin 4} (hs : s.settled = true)
    (he : (∃ sent, s.cdu.engine = .pollXfer b sent) ∨ ∃ piece tag lane sent, s.cdu.engine = .cutXfer b piece tag lane sent)
    (point : AbandonPoint) (lck : Lck) :
    ∃ w, State.Abandons (s.effectivePoint point) b s.clearOutputs w ∧ exec (.transferAbandon point lck) s = .next (w.afterAbandon lck).finish := by
  have start : ∀ sent, s.cdu.engine.startSent = some sent →
      exec (.transferAbandon point lck) s = .next ((s.clearOutputs.abandon (s.effectivePoint point)).afterAbandon lck).finish := by
    intro sent hsent
    rw [exec, execTransferAbandon, command_next hs]
    unfold State.transferAbandon State.effectivePoint
    rw [show s.clearOutputs.cdu.engine.startSent = some sent from hsent, hsent]
    cases lck with
    | seenHigh => rfl
    | stillLow => rfl
  rcases he with ⟨sent, he⟩ | ⟨piece, tag, lane, sent, he⟩
  · exact ⟨_, State.abandon_of_poll (s := s.clearOutputs) he _, start sent (by rw [he]; rfl)⟩
  · exact ⟨_, State.abandon_of_cut (s := s.clearOutputs) he _, start sent (by rw [he]; rfl)⟩

/-- Settles O37. -/
theorem abandonedTransfer : Obligations.AbandonedTransfer := by
  intro s point b hs staged mask he bit misses busy uncertain lost
  obtain ⟨x, hx⟩ : ∃ x, x = s.atAbandon (s.effectivePoint point) b := ⟨_, rfl⟩
  have certain : ¬uncertain → x = s.bridge b := fun h => hx.trans (State.atAbandon_of_certain he h)
  have issued : ∀ piece tag lane sent, s.cdu.engine = .cutXfer b piece tag lane sent → uncertain →
      x = { s.bridge b with state := .busy tag piece } := fun piece tag lane sent h hu => hx.trans (State.atAbandon_of_uncertain h hu)
  have ordered : uncertain → ∃ tag piece, x = { s.bridge b with state := .busy tag piece } := by
    intro hu
    have ⟨piece, tag, lane, sent, h, _⟩ := hu
    exact ⟨tag, piece, issued piece tag lane sent h hu⟩
  have fields : x.misses = (s.bridge b).misses
      ∧ ∀ st m, { x with state := st, misses := m } = { s.bridge b with state := st, misses := m } := by
    by_cases hu : uncertain
    · obtain ⟨tag, piece, h⟩ := ordered hu
      rw [h]
      exact ⟨rfl, fun _ _ => rfl⟩
    · rw [certain hu]
      exact ⟨rfl, fun _ _ => rfl⟩
  have loses : lost b ↔ x.losesOrder (bit b) := by
    refine and_congr_left fun _ => ?_
    by_cases hu : uncertain
    · obtain ⟨tag, piece, h⟩ := ordered hu
      exact ⟨fun _ => ⟨tag, piece, by rw [h]⟩, fun _ => .inr ⟨rfl, hu⟩⟩
    · rw [certain hu]
      exact ⟨fun h => h.elim id fun h => absurd h.2 hu, .inl⟩
  have up : (s.bridge b).state ≠ .disabled ∨ uncertain → x.state ≠ .disabled := by
    intro h
    by_cases hu : uncertain
    · obtain ⟨tag, piece, h⟩ := ordered hu
      rw [h]
      exact nofun
    · rw [certain hu]
      exact h.resolve_right hu
  obtain ⟨sameMisses, sameRest⟩ := fields
  constructor
  · obtain ⟨w, ab, start⟩ := exec_transferAbandon hs he point .stillLow
    refine ⟨_, start, ?_⟩
    obtain ⟨only, engine, held, loop, bridges, orders, cause, counted⟩ :=
      w.enterStuck_facts (ab.linkOnly.stagedLink.trans staged) (ab.linkOnly.newMask.trans mask)
    have all := ab.linkOnly.trans only
    have atB : w.enterStuck.bridge b = (x.missed (bit b)).atStuck (bit b) := by
      rw [bridges, ab.bridge, ab.linkOnly.mask, hx]
      rfl
    have atC : ∀ c, c ≠ b → w.enterStuck.bridge c = (s.bridge c).atStuck (bit c) := by
      intro c hc
      rw [bridges, ab.others c hc, ab.linkOnly.mask]
      rfl
    simp only [State.afterAbandon, State.finish_cdu, State.finish_bridge, State.finish_lcu, State.finish_fdu, State.finish_ppl,
      State.finish_tru_flight]
    refine ⟨engine, held, loop, fun c => ?_, fun c hd hc => ?_, fun c hl => ?_, fun c hc hd hl => ?_, fun hd hu => ?_, fun h hl => ?_,
      orders, State.finish_causes cause, ?_, all.lcu, all.fdu, all.ppl, all.flight⟩
    · rw [bridges]
      exact Bridge.atStuck_state _ _
    · rw [atC c hc]
      exact Bridge.atStuck_of_disabled hd _
    · by_cases hc : c = b
      · subst hc
        rw [atB, Bridge.missed_atStuck_of_lost (loses.mp hl)]
        exact sameRest _ _
      · rw [atC c hc]
        exact Bridge.atStuck_of_lost ⟨hl.1.resolve_right fun h => hc h.1, hl.2⟩
    · rw [atC c hc]
      exact Bridge.atStuck_of_kept hd fun h => hl ⟨.inl h.1, h.2⟩
    · rw [atB, certain hu, Bridge.missed_of_disabled hd]
      exact Bridge.atStuck_of_disabled (x := { s.bridge b with misses := misses }) hd _
    · rw [atB, Bridge.missed_atStuck_of_kept (up h) (mt loses.mpr hl), sameRest, sameMisses]
    · refine (congrArg (fun a : Sac => a.counters.bridgeMisses[b]) (State.finish_sac _)).trans ?_
      exact (congrArg (fun v : Vector Nat 4 => v[b]) (counted.trans ab.counted)).trans (bump_same _ b 1)
  · obtain ⟨w, ab, start⟩ := exec_transferAbandon hs he point .seenHigh
    refine ⟨_, start, ?_⟩
    obtain ⟨v, hv⟩ : ∃ v : State, v = { w with cdu.lckHeld := false } := ⟨_, rfl⟩
    have only : s.clearOutputs.LinkOnly v := ab.linkOnly.trans (by rw [hv]; exact ⟨rfl, rfl, rfl, rfl, rfl, rfl, rfl, rfl, rfl⟩)
    have pass := State.boundary_passes (only.stagedLink.trans staged) (only.newMask.trans mask)
    have all := only.trans pass.linkOnly
    have engine : v.boundary.cdu.engine ≠ .stuck := by
      rw [State.boundary, State.takeLink_of_none (only.stagedLink.trans staged) (only.newMask.trans mask)]
      exact v.chooseNext_passesBoundary.2
    have bridges : ∀ c, v.boundary.finish.bridge c = w.bridge c := by
      intro c
      rw [pass.bridge, hv]
      rfl
    have atB : v.boundary.finish.bridge b = x.missed (bit b) := by
      rw [bridges, ab.bridge, hx]
      rfl
    rw [State.afterAbandon, ← hv]
    refine ⟨by rw [State.finish_cdu]; exact engine, by rw [pass.lckHeld, hv], ?_, fun few hu => ?_,
      fun few piece tag lane sent h hu => ?_, fun three hl => ?_, fun three hl h => ?_,
      fun c hc => (bridges c).trans (ab.others c hc), all.lcu, all.fdu, all.ppl, all.flight⟩
    · rw [pass.sac, hv]
      exact (congrArg (fun v : Vector Nat 4 => v[b]) ab.counted).trans (bump_same _ b 1)
    · rw [atB, certain hu]
      exact Bridge.missed_of_few (by omega) _
    · rw [atB, issued piece tag lane sent h hu]
      exact Bridge.missed_of_few (x := { s.bridge b with state := .busy tag piece }) (by change (s.bridge b).misses < 2; omega) _
    · rw [atB, Bridge.missed_of_lost (by rw [sameMisses]; omega) (loses.mp hl)]
      exact sameRest _ _
    · rw [atB, Bridge.missed_of_kept (by rw [sameMisses]; omega) (up h) (mt loses.mpr hl), sameRest, sameMisses]
      exact congrArg (fun m => { s.bridge b with state := .offline, misses := m }) three

end Sys2Proof.Machine
end

section
/-! PROOFS. The end of a POLL transfer (O35). -/

namespace Sys2Proof.Machine

variable {s t u : State}

/-! ### The response -/

theorem State.pollEnds_of_good {status tag check : Byte} {k : StatusKind} (hk : statusKindOf status = some k)
    (sum : (status.toNat + tag.toNat + check.toNat) % 256 = 0) (b : Fin 4) (s : State) :
    s.pollEnds b status tag check = s.pollGood b k status tag := by
  have good : judge [status, tag, check] (statusKindOf status).isSome = .good :=
    (judge_eq_good_iff (rest := [check]) (Nat.le_refl 1)).mpr ⟨by simpa [Nat.add_assoc] using sum, by rw [hk]; rfl⟩
  unfold State.pollEnds
  rw [good, hk]

theorem State.pollEnds_of_bad {status tag check : Byte}
    (h : ¬((status.toNat + tag.toNat + check.toNat) % 256 = 0 ∧ (statusKindOf status).isSome = true)) (b : Fin 4) (s : State) :
    s.pollEnds b status tag check = s.chargeMiss b := by
  unfold State.pollEnds
  split
  · next k good _ =>
    obtain ⟨sum, defined⟩ := (judge_eq_good_iff (rest := [check]) (Nat.le_refl 1)).mp good
    exact absurd ⟨by simpa [Nat.add_assoc] using sum, defined⟩ h
  · rfl

theorem statusKindOf_isSome_iff (status : Byte) : (statusKindOf status).isSome = true ↔ 1 ≤ status.toNat / 16 ∧ status.toNat / 16 ≤ 4 := by
  unfold statusKindOf
  generalize status.toNat / 16 = n
  match n with
  | 0 => decide
  | 1 => decide
  | 2 => decide
  | 3 => decide
  | 4 => decide
  | n + 5 => exact ⟨nofun, fun h => by omega⟩

/-- The bridge with its last report replaced and its miss count clear (R110, R119). -/
def State.reported (b : Fin 4) (status tag : Byte) (s : State) : State :=
  s.onBridge b fun x => { x with lastStatus := status, lastTag := tag, misses := 0 }

theorem State.reported_bridge (b : Fin 4) (status tag : Byte) (s : State) :
    (s.reported b status tag).bridge b = { s.bridge b with lastStatus := status, lastTag := tag, misses := 0 } :=
  State.onBridge_bridge_same s b fun x => { x with lastStatus := status, lastTag := tag, misses := 0 }

theorem State.pollGood_of_busy {b : Fin 4} {out : Byte} {p : Word} (h : (s.bridge b).state = .busy out p) (k : StatusKind)
    (status tag : Byte) :
    s.pollGood b k status tag = (s.reported b status tag).pollBusy b out p k (status &&& 0x0F) tag := by
  have state : ((s.reported b status tag).bridge b).state = .busy out p := by rw [State.reported_bridge, h]
  unfold State.pollGood
  dsimp only
  rw [← State.reported, state]

theorem State.pollGood_of_free {b : Fin 4}
    (h : (s.bridge b).state = .offline ∨ (s.bridge b).state = .idle ∨ (s.bridge b).state = .notReady ∨ (s.bridge b).state = .fault)
    (k : StatusKind) (status tag : Byte) :
    s.pollGood b k status tag = (s.reported b status tag).pollFree b k (status &&& 0x0F) := by
  have state : ((s.reported b status tag).bridge b).state = (s.bridge b).state := by rw [State.reported_bridge]
  unfold State.pollGood
  dsimp only
  rw [← State.reported, state]
  rcases h with h | h | h | h
  · rw [h]
  · rw [h]
  · rw [h]
  · rw [h]

theorem exec_pollTransferEnd {status tag check : Byte} {b : Fin 4} {sent : Bool} (hs : s.settled = true)
    (he : s.cdu.engine = .pollXfer b sent) (begun : sent = true ∨ s.cdu.lckHeld = false) :
    exec (.pollTransferEnd status tag check) s =
      .next (((s.clearOutputs.pollEnds b status tag check).polled b).boundary.finish) := by
  have transfer : s.clearOutputs.transferBegun sent = true := (State.transferBegun_iff sent).mpr begun
  have ends : s.clearOutputs.pollTransferEnd status tag check = ((s.clearOutputs.pollEnds b status tag check).polled b).boundary := by
    unfold State.pollTransferEnd
    rw [show s.clearOutputs.cdu.engine = _ from he]
    exact if_pos transfer
  rw [exec, execPollTransferEnd, command_next hs, ends]

/-- What the boundary after a POLL leaves as it is. -/
theorem State.polled_passes (b : Fin 4) (hs : s.cdu.stagedLink = none) (hn : s.cdu.newMask = none) :
    s.PassesBoundary (s.polled b).boundary.finish :=
  (State.passesBoundary_of_cdu (s := s) (s.polled b).cdu rfl rfl rfl rfl rfl rfl rfl rfl).trans rfl (State.boundary_passes hs hn)

/-! ### Causes -/

theorem State.raise_keepsCauses {c : Cause} {i : Nat} (h : s.csu.causes.getLsbD i = true) : (s.raise c).csu.causes.getLsbD i = true := by
  rw [State.raise_causes, BitVec.getLsbD_or, h, Bool.true_or]

theorem State.produce_keepsCauses {ch : Fin 3} {b : RecordBody} {i : Nat} (h : s.csu.causes.getLsbD i = true) :
    (s.produce ch b).csu.causes.getLsbD i = true := by
  unfold State.produce
  dsimp only
  split
  · exact h
  · exact State.raise_keepsCauses h

theorem State.entryOutcome_keepsCauses {o : PieceOutcome} {e : Entry} {i : Nat} (h : s.csu.causes.getLsbD i = true) :
    (s.entryOutcome o e).csu.causes.getLsbD i = true := by
  unfold State.entryOutcome State.pieceOutcome
  dsimp only
  cases o with
  | cut => exact State.produce_keepsCauses h
  | abandoned => exact State.produce_keepsCauses h
  | missed => exact State.raise_keepsCauses (State.produce_keepsCauses h)
  | faulted => exact State.raise_keepsCauses (State.produce_keepsCauses h)

/-! ### Entries of an order -/

theorem State.entryOf_of_mem (nodup : (s.cdu.queue.map fun x => x.piece.seq).Nodup) {e : Entry} (he : e ∈ s.cdu.queue) :
    s.entryOf e.piece.seq = some e := by
  obtain ⟨x, hx⟩ := Option.isSome_iff_exists.mp
    (List.find?_isSome.mpr ⟨e, he, beq_self_eq_true _⟩ : (s.cdu.queue.find? fun x => x.piece.seq == e.piece.seq).isSome = true)
  have seq : (x.piece.seq == e.piece.seq) = true := List.find?_some (p := fun x : Entry => x.piece.seq == e.piece.seq) hx
  rw [State.entryOf, hx, eq_of_nodup_map nodup (List.mem_of_find?_eq_some hx) he (eq_of_beq seq)]

/-- What the return of the entry `e` to WAITING changes (R105, R119). -/
structure State.Returned (e : Entry) (s t : State) : Prop where
  linkOnly : s.LinkOnly t
  bridges : ∀ c, t.bridge c = s.bridge c
  faults : t.sac.counters.bridgeFaults = s.sac.counters.bridgeFaults
  causes : ∀ i, s.csu.causes.getLsbD i = true → t.csu.causes.getLsbD i = true
  late : s.pastMiss e = true → State.TakesEntry e 1 s t ∧ t.csu.causes.getLsbD 12 = true
  early : s.pastMiss e = false → s.SameEntries t ∧ { e with state := .waiting false } ∈ t.cdu.queue

theorem State.returnEntry_returned (nodup : (s.cdu.queue.map fun x => x.piece.seq).Nodup) {e : Entry} (he : e ∈ s.cdu.queue) :
    State.Returned e s (s.returnEntry e.piece.seq) := by
  obtain ⟨w, hw⟩ : ∃ w : Entry, w = { e with state := .waiting false } := ⟨_, rfl⟩
  have seqs : ((s.setEntry e.piece.seq (.waiting false)).cdu.queue.map fun x => x.piece.seq) = s.cdu.queue.map fun x => x.piece.seq := by
    have h := congrArg (List.map Piece.seq) (s.setEntry_sameEntries e.piece.seq (.waiting false)).pieces
    rwa [List.map_map, List.map_map] at h
  have mem : w ∈ (s.setEntry e.piece.seq (.waiting false)).cdu.queue := hw ▸ List.mem_map.mpr ⟨e, he, if_pos rfl⟩
  have found : (s.setEntry e.piece.seq (.waiting false)).entryOf e.piece.seq = some w := by
    have h := State.entryOf_of_mem (seqs ▸ nodup) mem
    rwa [hw] at h ⊢
  have same := s.setEntry_sameEntries e.piece.seq (.waiting false)
  have past : (s.setEntry e.piece.seq (.waiting false)).pastMiss w = s.pastMiss e := by rw [hw]; rfl
  have tested : s.returnEntry e.piece.seq =
      if s.pastMiss e then (s.setEntry e.piece.seq (.waiting false)).entryOutcome .missed w else s.setEntry e.piece.seq (.waiting false) := by
    unfold State.returnEntry State.missTestOn
    rw [found]
    dsimp only
    rw [past, hw]
    rfl
  rw [tested]
  cases hp : s.pastMiss e with
  | true =>
    rw [if_pos rfl]
    obtain ⟨-, -, faults, -⟩ : _ ∧ _ ∧ ((s.setEntry e.piece.seq (.waiting false)).entryOutcome .missed w).sac.counters.bridgeFaults = _ ∧ _ :=
      State.pieceOutcome_counters ..
    refine ⟨(s.setEntry_linkOnly _ _).trans (State.entryOutcome_linkOnly _ _ _), fun c => State.entryOutcome_bridge _ _ _ c, faults,
      fun i hi => State.entryOutcome_keepsCauses hi, fun _ => ⟨?_, State.entryOutcome_causes (c := .pieceMissed) rfl _ _⟩,
      fun h => absurd (hp.symm.trans h) nofun⟩
    have takes := same.takes (State.entryOutcome_takesEntry .missed w (s.setEntry e.piece.seq (.waiting false)))
    rw [hw] at takes ⊢
    exact ⟨takes.pieces, takes.outcomes, takes.grades, takes.produced⟩
  | false =>
    rw [if_neg Bool.false_ne_true]
    exact ⟨s.setEntry_linkOnly _ _, fun _ => rfl, rfl, fun _ h => h, fun h => absurd (hp.symm.trans h) nofun, fun _ => ⟨same, hw ▸ mem⟩⟩

/-! ### What a POLL leaves as it is -/

/-- From `s` to `t` dispatch alone has acted, and of the bridges on `b` alone. -/
structure State.AtBridge (b : Fin 4) (s t : State) : Prop where
  linkOnly : s.LinkOnly t
  others : ∀ c, c ≠ b → t.bridge c = s.bridge c

theorem State.AtBridge.refl (b : Fin 4) (s : State) : State.AtBridge b s s := ⟨.refl s, fun _ _ => rfl⟩

theorem State.AtBridge.trans {b : Fin 4} (h : State.AtBridge b s t) (h' : State.AtBridge b t u) : State.AtBridge b s u :=
  ⟨h.linkOnly.trans h'.linkOnly, fun c hc => (h'.others c hc).trans (h.others c hc)⟩

theorem State.onBridge_atBridge (b : Fin 4) (f : Bridge → Bridge) (s : State) : State.AtBridge b s (s.onBridge b f) :=
  ⟨s.onBridge_linkOnly b f, fun _ hc => State.onBridge_bridge_ne s f hc⟩

theorem State.setBridge_atBridge (b : Fin 4) (st : BridgeState) (s : State) : State.AtBridge b s (s.setBridge b st) :=
  s.onBridge_atBridge b _

theorem State.endBusy_atBridge (b : Fin 4) (st : BridgeState) (s : State) : State.AtBridge b s (s.endBusy b st) := by
  rw [State.endBusy_eq]
  exact s.onBridge_atBridge b _

theorem State.entryOutcome_atBridge (b : Fin 4) (o : PieceOutcome) (e : Entry) (s : State) : State.AtBridge b s (s.entryOutcome o e) :=
  ⟨s.entryOutcome_linkOnly o e, fun c _ => State.entryOutcome_bridge o e s c⟩

theorem State.returnEntry_atBridge (b : Fin 4) (p : Word) (s : State) : State.AtBridge b s (s.returnEntry p) := by
  have set : State.AtBridge b s (s.setEntry p (.waiting false)) := ⟨s.setEntry_linkOnly p _, fun _ _ => rfl⟩
  refine set.trans ?_
  change State.AtBridge b (s.setEntry p (.waiting false)) ((s.setEntry p (.waiting false)).missTestOn p)
  unfold State.missTestOn
  split
  · split
    · exact State.entryOutcome_atBridge b _ _ _
    · exact .refl b _
  · exact .refl b _

theorem State.bridgeFaulted_atBridge (b : Fin 4) (s : State) : State.AtBridge b s (s.bridgeFaulted b) :=
  ⟨(State.bridgeFaulted_bookkeeps b s).linkOnly, fun c _ => State.bridge_congr (congrArg Cdu.bridges (State.bridgeFaulted_bookkeeps b s).cdu :) c⟩

/-- A bridge with an order reports a fault (R107, R111, R119). -/
def State.bridgeFails (b : Fin 4) (code : Byte) (s : State) : State :=
  if s.cdu.mask.getLsbD b.val then
    (s.onBridge b fun x => Bridge.freed true .fault { x with faultCode := code }).bridgeFaulted b
  else s.onBridge b fun x => Bridge.freed false .fault { x with faultCode := code }

theorem State.bridgeFails_atBridge (b : Fin 4) (code : Byte) (s : State) : State.AtBridge b s (s.bridgeFails b code) := by
  unfold State.bridgeFails
  split
  · exact (s.onBridge_atBridge b _).trans (State.bridgeFaulted_atBridge b _)
  · exact s.onBridge_atBridge b _

theorem State.pollBusy_fault (b : Fin 4) (out : Byte) (p : Word) (code tag : Byte) (s : State) :
    s.pollBusy b out p .fault code tag =
      if tag = out then
        match (s.bridgeFails b code).entryOf p with
        | some e => (s.bridgeFails b code).entryOutcome .faulted e
        | none => s.bridgeFails b code
      else (s.bridgeFails b code).returnEntry p := by
  have fails : (if (((s.onBridge b fun x => { x with faultCode := code }).endBusy b .fault).bridge b).state = .fault then
        ((s.onBridge b fun x => { x with faultCode := code }).endBusy b .fault).bridgeFaulted b
      else (s.onBridge b fun x => { x with faultCode := code }).endBusy b .fault) = s.bridgeFails b code := by
    rw [State.endBusy_eq, State.onBridge_onBridge, State.onBridge_bridge_same, State.onBridge_mask]
    unfold State.bridgeFails
    cases s.cdu.mask.getLsbD b.val with
    | true => exact if_pos rfl
    | false => exact if_neg (nofun : BridgeState.disabled ≠ .fault)
  rw [← fails]
  rfl

theorem State.pollBusy_cutting (b : Fin 4) (out : Byte) (p : Word) (code tag : Byte) (s : State) :
    s.pollBusy b out p .cutting code tag = if tag = out then s else (s.endBusy b .notReady).returnEntry p := rfl

theorem State.pollBusy_done (b : Fin 4) (out : Byte) (p : Word) (code tag : Byte) (s : State) :
    s.pollBusy b out p .done code tag =
      if tag = out then
        match s.entryOf p with
        | some e => (s.endBusy b .idle).entryOutcome .cut e
        | none => s.endBusy b .idle
      else (s.endBusy b .idle).returnEntry p := rfl

theorem State.pollBusy_atBridge (b : Fin 4) (out : Byte) (p : Word) (k : StatusKind) (code tag : Byte) (s : State) :
    State.AtBridge b s (s.pollBusy b out p k code tag) := by
  have freed : ∀ st, State.AtBridge b s ((s.endBusy b st).returnEntry p) := fun st =>
    (s.endBusy_atBridge b st).trans (State.returnEntry_atBridge b p _)
  cases k with
  | ready => exact freed .idle
  | cutting =>
    rw [State.pollBusy_cutting]
    split
    · exact .refl b s
    · exact freed .notReady
  | done =>
    rw [State.pollBusy_done]
    split
    · split
      · exact (s.endBusy_atBridge b .idle).trans (State.entryOutcome_atBridge b _ _ _)
      · exact s.endBusy_atBridge b .idle
    · exact freed .idle
  | fault =>
    have fails := s.bridgeFails_atBridge b code
    rw [State.pollBusy_fault]
    split
    · split
      · exact fails.trans (State.entryOutcome_atBridge b _ _ _)
      · exact fails
    · exact fails.trans (State.returnEntry_atBridge b p _)

theorem State.pollFree_atBridge (b : Fin 4) (k : StatusKind) (code : Byte) (s : State) : State.AtBridge b s (s.pollFree b k code) := by
  cases k with
  | ready => exact s.setBridge_atBridge b .idle
  | done => exact s.setBridge_atBridge b .idle
  | cutting => exact s.setBridge_atBridge b .notReady
  | fault =>
    unfold State.pollFree
    dsimp only
    split
    · exact s.onBridge_atBridge b _
    · exact (s.onBridge_atBridge b _).trans (State.bridgeFaulted_atBridge b _)

theorem State.pollEnds_atBridge (b : Fin 4) (status tag check : Byte) (s : State) :
    State.AtBridge b s (s.pollEnds b status tag check) := by
  unfold State.pollEnds
  split
  · unfold State.pollGood
    dsimp only
    have reported : State.AtBridge b s (s.reported b status tag) := s.onBridge_atBridge b _
    rw [← State.reported]
    refine reported.trans ?_
    split
    · exact State.pollBusy_atBridge ..
    · exact .refl b _
    · exact State.pollFree_atBridge ..
    · exact State.pollFree_atBridge ..
    · exact State.pollFree_atBridge ..
    · exact State.pollFree_atBridge ..
  · exact ⟨(State.chargeMiss_misses b s).linkOnly, (State.chargeMiss_misses b s).others⟩

/-! ### The rows of R119 and R120 -/

theorem State.endBusy_bridge (b : Fin 4) (st : BridgeState) (s : State) :
    (s.endBusy b st).bridge b = (s.bridge b).freed (s.cdu.mask.getLsbD b.val) st := by
  rw [State.endBusy_eq, State.onBridge_bridge_same]

theorem State.endBusy_queue (b : Fin 4) (st : BridgeState) (s : State) : (s.endBusy b st).cdu.queue = s.cdu.queue := by
  rw [State.endBusy_eq]
  rfl

theorem State.endBusy_pastMiss (b : Fin 4) (st : BridgeState) (s : State) (e : Entry) : (s.endBusy b st).pastMiss e = s.pastMiss e := by
  rw [State.endBusy_eq]
  rfl

theorem State.reported_sameEntries (b : Fin 4) (status tag : Byte) (s : State) : s.SameEntries (s.reported b status tag) :=
  s.onBridge_sameEntries b _

/-- An entry returns with its bridge freed (R119). -/
structure State.FreesAndReturns (b : Fin 4) (st : BridgeState) (e : Entry) (s t : State) : Prop where
  bridge : t.bridge b = (s.bridge b).freed (s.cdu.mask.getLsbD b.val) st
  late : s.pastMiss e = true → State.TakesEntry e 1 s t ∧ t.csu.causes.getLsbD 12 = true
  early : s.pastMiss e = false → s.SameEntries t ∧ { e with state := .waiting false } ∈ t.cdu.queue

theorem State.endBusy_returns {e : Entry} (nodup : (s.cdu.queue.map fun x => x.piece.seq).Nodup) (he : e ∈ s.cdu.queue) (b : Fin 4)
    (st : BridgeState) : State.FreesAndReturns b st e s ((s.endBusy b st).returnEntry e.piece.seq) := by
  have queue := s.endBusy_queue b st
  have returned := State.returnEntry_returned (s := s.endBusy b st) (queue ▸ nodup) (queue ▸ he)
  have same := s.endBusy_sameEntries b st
  refine ⟨(returned.bridges b).trans (s.endBusy_bridge b st), fun h => ?_, fun h => ?_⟩
  · obtain ⟨takes, cause⟩ := returned.late ((s.endBusy_pastMiss b st e).trans h)
    exact ⟨same.takes takes, cause⟩
  · obtain ⟨keeps, mem⟩ := returned.early ((s.endBusy_pastMiss b st e).trans h)
    exact ⟨same.trans keeps, mem⟩

theorem State.entryOf_queue {e : Entry} {p : Word} (h : s.entryOf p = some e) (hq : t.cdu.queue = s.cdu.queue) : t.entryOf p = some e :=
  (State.entryOf_congr hq p).trans h

/-- A piece is cut: its bridge is free, its entry leaves (R119). -/
theorem State.pollBusy_cuts {b : Fin 4} {p : Word} {e : Entry} (he : s.entryOf p = some e) (out : Byte) (code : Byte) :
    (s.pollBusy b out p .done code out).bridge b = (s.bridge b).freed (s.cdu.mask.getLsbD b.val) .idle
      ∧ State.TakesEntry e 0 s (s.pollBusy b out p .done code out) := by
  rw [State.pollBusy_done, if_pos rfl, he]
  refine ⟨?_, (s.endBusy_sameEntries b .idle).takes (State.entryOutcome_takesEntry .cut e _)⟩
  dsimp only
  rw [State.entryOutcome_bridge, State.endBusy_bridge]

/-- What a fault that a BUSY bridge reports changes (R111, R119). -/
theorem State.bridgeFails_facts (b : Fin 4) (code : Byte) (s : State) :
    (s.bridgeFails b code).bridge b = Bridge.freed (s.cdu.mask.getLsbD b.val) .fault { s.bridge b with faultCode := code }
      ∧ s.SameEntries (s.bridgeFails b code) ∧ (s.bridgeFails b code).cdu.queue = s.cdu.queue
      ∧ (∀ e, (s.bridgeFails b code).pastMiss e = s.pastMiss e)
      ∧ (s.cdu.mask.getLsbD b.val = true →
          (s.bridgeFails b code).sac.counters.bridgeFaults = bump s.sac.counters.bridgeFaults b 1
            ∧ (s.bridgeFails b code).csu.causes.getLsbD 13 = true)
      ∧ (s.cdu.mask.getLsbD b.val = false → (s.bridgeFails b code).sac.counters.bridgeFaults = s.sac.counters.bridgeFaults) := by
  unfold State.bridgeFails
  cases hm : s.cdu.mask.getLsbD b.val with
  | true =>
    rw [if_pos rfl]
    obtain ⟨w, hw⟩ : ∃ w, w = s.onBridge b fun x => Bridge.freed true .fault { x with faultCode := code } := ⟨_, rfl⟩
    have keeps := State.bridgeFaulted_bookkeeps b w
    rw [← hw]
    refine ⟨?_, ?_, ?_, fun e => ?_, fun _ => ⟨?_, State.raise_bit .bridgeFault _⟩, nofun⟩
    · rw [State.bridge_congr (congrArg Cdu.bridges keeps.cdu), hw, State.onBridge_bridge_same]
    · exact State.SameEntries.trans (by rw [hw]; exact s.onBridge_sameEntries b _) (State.bridgeFaulted_sameEntries b w)
    · exact (congrArg Cdu.queue keeps.cdu :).trans (by rw [hw]; rfl)
    · rw [State.pastMiss, State.pastMiss, keeps.cdu, keeps.lcu, hw]
      rfl
    · rw [State.bridgeFaulted_counters, hw]
      rfl
  | false =>
    rw [if_neg Bool.false_ne_true]
    exact ⟨State.onBridge_bridge_same s b _, s.onBridge_sameEntries b _, rfl, fun _ => rfl, nofun, fun _ => rfl⟩

/-- The fault of a BUSY bridge, and what becomes of its order (R119). -/
structure State.FailsWithOrder (b : Fin 4) (code : Byte) (e : Entry) (mine : Prop) (s t : State) : Prop where
  bridge : t.bridge b = Bridge.freed (s.cdu.mask.getLsbD b.val) .fault { s.bridge b with faultCode := code }
  faulted : s.cdu.mask.getLsbD b.val = true →
    t.sac.counters.bridgeFaults = bump s.sac.counters.bridgeFaults b 1 ∧ t.csu.causes.getLsbD 13 = true
  disabled : s.cdu.mask.getLsbD b.val = false → t.sac.counters.bridgeFaults = s.sac.counters.bridgeFaults
  taken : mine → State.TakesEntry e 2 s t ∧ t.csu.causes.getLsbD 13 = true
  late : ¬mine → s.pastMiss e = true → State.TakesEntry e 1 s t ∧ t.csu.causes.getLsbD 12 = true
  early : ¬mine → s.pastMiss e = false → s.SameEntries t ∧ { e with state := .waiting false } ∈ t.cdu.queue

theorem State.pollBusy_fails {e : Entry} (nodup : (s.cdu.queue.map fun x => x.piece.seq).Nodup) (he : e ∈ s.cdu.queue) (b : Fin 4)
    (out code tag : Byte) : State.FailsWithOrder b code e (tag = out) s (s.pollBusy b out e.piece.seq .fault code tag) := by
  obtain ⟨bridge, same, queue, past, faulted, disabled⟩ := s.bridgeFails_facts b code
  rw [State.pollBusy_fault]
  by_cases mine : tag = out
  · obtain ⟨-, -, faults, -⟩ : _ ∧ _ ∧ ((s.bridgeFails b code).entryOutcome .faulted e).sac.counters.bridgeFaults = _ ∧ _ :=
      State.pieceOutcome_counters ..
    have cause := State.entryOutcome_causes (o := .faulted) (c := .bridgeFault) rfl (s.bridgeFails b code) e
    rw [if_pos mine, State.entryOf_queue (State.entryOf_of_mem nodup he) queue]
    exact ⟨(State.entryOutcome_bridge _ _ _ b).trans bridge, fun h => ⟨faults.trans (faulted h).1, cause⟩, fun h => faults.trans (disabled h),
      fun _ => ⟨same.takes (State.entryOutcome_takesEntry .faulted e _), cause⟩, fun h => absurd mine h, fun h => absurd mine h⟩
  · have returned := State.returnEntry_returned (s := s.bridgeFails b code) (queue ▸ nodup) (queue ▸ he)
    rw [if_neg mine]
    refine ⟨(returned.bridges b).trans bridge, fun h => ⟨returned.faults.trans (faulted h).1, returned.causes _ (faulted h).2⟩,
      fun h => returned.faults.trans (disabled h), fun h => absurd h mine, fun _ h => ?_, fun _ h => ?_⟩
    · obtain ⟨takes, cause⟩ := returned.late ((past e).trans h)
      exact ⟨same.takes takes, cause⟩
    · obtain ⟨keeps, mem⟩ := returned.early ((past e).trans h)
      exact ⟨same.trans keeps, mem⟩

/-- A bridge that is not BUSY reports a fault (R111, R120). -/
theorem State.pollFree_fault (b : Fin 4) (code : Byte) (s : State) :
    (s.pollFree b .fault code).bridge b = { s.bridge b with state := .fault, faultCode := code }
      ∧ s.SameEntries (s.pollFree b .fault code)
      ∧ ((s.bridge b).state ≠ .fault → (s.pollFree b .fault code).sac.counters.bridgeFaults = bump s.sac.counters.bridgeFaults b 1
          ∧ (s.pollFree b .fault code).csu.causes.getLsbD 13 = true)
      ∧ ((s.bridge b).state = .fault → (s.pollFree b .fault code).sac.counters.bridgeFaults = s.sac.counters.bridgeFaults) := by
  obtain ⟨w, hw⟩ : ∃ w, w = s.onBridge b fun x => { x with state := .fault, faultCode := code } := ⟨_, rfl⟩
  have bridge : w.bridge b = { s.bridge b with state := .fault, faultCode := code } := by rw [hw]; exact State.onBridge_bridge_same s b _
  have same : s.SameEntries w := by rw [hw]; exact s.onBridge_sameEntries b _
  have sac : w.sac = s.sac := by rw [hw]; rfl
  have fails : s.pollFree b .fault code = if (s.bridge b).state = .fault then w else w.bridgeFaulted b := by rw [hw]; rfl
  rw [fails]
  by_cases h : (s.bridge b).state = .fault
  · rw [if_pos h]
    exact ⟨bridge, same, fun hn => absurd h hn, fun _ => by rw [sac]⟩
  · rw [if_neg h]
    refine ⟨(State.bridge_congr (congrArg Cdu.bridges (State.bridgeFaulted_bookkeeps b w).cdu :) b).trans bridge,
      same.trans (State.bridgeFaulted_sameEntries b w), fun _ => ⟨?_, State.raise_bit .bridgeFault _⟩, fun hf => absurd hf h⟩
    rw [State.bridgeFaulted_counters, sac]

theorem State.pollFree_sameEntries (b : Fin 4) (k : StatusKind) (code : Byte) (s : State) : s.SameEntries (s.pollFree b k code) := by
  cases k with
  | ready => exact ⟨rfl, rfl, rfl, rfl⟩
  | cutting => exact ⟨rfl, rfl, rfl, rfl⟩
  | done => exact ⟨rfl, rfl, rfl, rfl⟩
  | fault => exact (s.pollFree_fault b code).2.1

/-! ### Misses and entries -/

theorem State.chargeMiss_same_of_few {b : Fin 4} (few : (s.bridge b).misses < 2) : s.SameEntries (s.chargeMiss b) := by
  rw [State.chargeMiss_of_few few]
  exact s.missCounted_sameEntries b

/-- The third miss of a BUSY bridge faults its piece (R110). -/
theorem State.chargeMiss_takes {b : Fin 4} (many : 2 ≤ (s.bridge b).misses) {out : Byte} {e : Entry}
    (hs : (s.bridge b).state = .busy out e.piece.seq) (he : s.entryOf e.piece.seq = some e) :
    State.TakesEntry e 2 s (s.chargeMiss b) ∧ (s.chargeMiss b).csu.causes.getLsbD 13 = true := by
  have state : ((s.missCounted b).bridge b).state = .busy out e.piece.seq := by rw [State.missCounted_bridge, hs]
  have lost : s.SameEntries ((s.missCounted b).orderLost b) :=
    (s.missCounted_sameEntries b).trans (State.bridgeDown_sameEntries b _ _)
  rw [State.chargeMiss_of_third many, State.thirdMiss_of_busy state,
    State.entryOf_queue (t := s.missCounted b) he rfl]
  exact ⟨lost.takes (State.entryOutcome_takesEntry .faulted e _), State.entryOutcome_causes (c := .bridgeFault) rfl _ _⟩

/-- A miss of a bridge without an order touches no entry; the third raises BRIDGE_FAULT unless the bridge is OFFLINE (R110). -/
theorem State.chargeMiss_free {b : Fin 4}
    (h : (s.bridge b).state = .offline ∨ (s.bridge b).state = .idle ∨ (s.bridge b).state = .notReady ∨ (s.bridge b).state = .fault) :
    s.SameEntries (s.chargeMiss b)
      ∧ (2 ≤ (s.bridge b).misses → (s.bridge b).state ≠ .offline → (s.chargeMiss b).csu.causes.getLsbD 13 = true) := by
  by_cases few : (s.bridge b).misses < 2
  · exact ⟨State.chargeMiss_same_of_few few, fun many => absurd few (Nat.not_lt.mpr many)⟩
  · have counted : ((s.missCounted b).bridge b).state = (s.bridge b).state := by rw [State.missCounted_bridge]
    have same := s.missCounted_sameEntries b
    rw [State.chargeMiss_of_third (Nat.not_lt.mp few)]
    rcases h with off | up
    · rw [State.thirdMiss_of_gone (.inl (counted.trans off))]
      exact ⟨same, fun _ hn => absurd off hn⟩
    · rw [State.thirdMiss_of_up (by rwa [counted])]
      exact ⟨same.trans (State.bridgeDown_sameEntries b _ _), fun _ _ => State.bridgeDown_causes b _ _⟩

/-- A bridge without an order after a miss (R110). -/
theorem Bridge.missed_of_free {x : Bridge} (h : x.state = .offline ∨ x.state = .idle ∨ x.state = .notReady ∨ x.state = .fault)
    (bit : Bool) :
    x.missed bit = { x with misses := min 3 (x.misses + 1), state := if min 3 (x.misses + 1) = 3 then .offline else x.state } := by
  by_cases few : x.misses < 2
  · rw [Bridge.missed_of_few few, if_neg (by omega)]
  · have many := Nat.not_lt.mp few
    rw [if_pos (by omega)]
    rcases h with off | up
    · rw [Bridge.missed_of_gone many (.inl off), off]
    · exact Bridge.missed_of_up many up bit

theorem statusKindOf_of_kind {status : Byte} {n : Nat} : status.toNat / 16 = n →
    statusKindOf status = match n with
      | 1 => some .ready
      | 2 => some .cutting
      | 3 => some .done
      | 4 => some .fault
      | _ => none := by
  rintro rfl
  rfl

theorem Bridge.freed_of_clear {x : Bridge} (h : x.misses = 0) (bit : Bool) (st : BridgeState) :
    x.freed bit st = { x with state := if bit then st else .disabled } := by
  cases bit with
  | true => rfl
  | false => rw [Bridge.freed, if_neg Bool.false_ne_true, if_neg Bool.false_ne_true, ← h]

/-- From `v` to `t` a POLL transfer has ended in `w`, and the boundary has followed. -/
structure State.Polls (b : Fin 4) (v w t : State) : Prop where
  touched : State.AtBridge b v w
  pass : w.PassesBoundary t

theorem State.Polls.same {b : Fin 4} {v w t : State} (h : State.Polls b v w t) (hs : v.SameEntries w) : v.SameEntries t := hs.trans h.pass.same

theorem State.Polls.takes {b : Fin 4} {v w t : State} (h : State.Polls b v w t) {e : Entry} {o : Fin 4} {bit : Nat}
    (hw : State.TakesEntry e o v w ∧ w.csu.causes.getLsbD bit = true) : State.TakesEntry e o v t ∧ t.csu.causes.getLsbD bit = true :=
  ⟨hw.1.then h.pass.same, h.pass.causes bit hw.2⟩

theorem exec_poll {status tag check : Byte} {b : Fin 4} {sent : Bool} (hs : s.settled = true)
    (he : s.cdu.engine = .pollXfer b sent) (begun : sent = true ∨ s.cdu.lckHeld = false) (staged : s.cdu.stagedLink = none)
    (mask : s.cdu.newMask = none) :
    ∃ t, exec (.pollTransferEnd status tag check) s = .next t
      ∧ State.Polls b s.clearOutputs (s.clearOutputs.pollEnds b status tag check) t := by
  have only := State.pollEnds_atBridge b status tag check s.clearOutputs
  exact ⟨_, exec_pollTransferEnd hs he begun, only,
    State.polled_passes b (only.linkOnly.stagedLink.trans staged) (only.linkOnly.newMask.trans mask)⟩

/-- Settles O35. -/
theorem doneCutsThePiece : Obligations.DoneCutsThePiece := by
  constructor
  · intro s status tag check b sent e hs he begun staged mask bit busy found kind sum
    obtain ⟨t, start, polls⟩ := exec_poll (status := status) (tag := tag) (check := check) hs he begun staged mask
    refine ⟨t, start, ?_⟩
    have all := polls.touched.linkOnly.trans polls.pass.linkOnly
    have row : s.clearOutputs.pollEnds b status tag check =
        (s.clearOutputs.reported b status tag).pollBusy b tag e.piece.seq .done (status &&& 0x0F) tag := by
      rw [State.pollEnds_of_good (statusKindOf_of_kind kind) sum]
      exact State.pollGood_of_busy (s := s.clearOutputs) busy _ _ _
    obtain ⟨bridge, takes⟩ := State.pollBusy_cuts (s := s.clearOutputs.reported b status tag) (b := b) found tag (status &&& 0x0F)
    rw [← row] at bridge takes
    have taken := ((State.reported_sameEntries b status tag s.clearOutputs).takes takes).then polls.pass.same
    refine ⟨?_, fun c hc => (polls.pass.bridge c).trans (polls.touched.others c hc), taken.pieces, taken.outcomes, taken.grades, taken.produced,
      all.mask, all.link, all.lcu, all.fdu, all.ppl, all.flight⟩
    rw [polls.pass.bridge, bridge, State.reported_bridge]
    exact if_pos bit
  · intro s status tag check b sent hs he begun staged mask nodup x bit kind good misses reported faulted same taken returns faults missed
    obtain ⟨t, start, polls⟩ := exec_poll (status := status) (tag := tag) (check := check) hs he begun staged mask
    refine ⟨t, start, ?_⟩
    have all := polls.touched.linkOnly.trans polls.pass.linkOnly
    have bridge := polls.pass.bridge b
    have toReported := State.reported_sameEntries b status tag s.clearOutputs
    have same' : s.clearOutputs.SameEntries (s.clearOutputs.pollEnds b status tag check) → same t := fun h =>
      have k := polls.same h
      ⟨k.pieces, k.outcomes, k.produced⟩
    have taken' : ∀ {e o n}, State.TakesEntry e o s.clearOutputs (s.clearOutputs.pollEnds b status tag check)
        ∧ (s.clearOutputs.pollEnds b status tag check).csu.causes.getLsbD n = true → taken t e o n := fun h =>
      have ⟨k, c⟩ := polls.takes h
      ⟨k.pieces, k.outcomes, k.grades, k.produced, c⟩
    have returns' : ∀ {e},
        (s.pastMiss e = true → State.TakesEntry e 1 (s.clearOutputs.reported b status tag) (s.clearOutputs.pollEnds b status tag check)
          ∧ (s.clearOutputs.pollEnds b status tag check).csu.causes.getLsbD 12 = true) →
        (s.pastMiss e = false → (s.clearOutputs.reported b status tag).SameEntries (s.clearOutputs.pollEnds b status tag check)
          ∧ { e with state := .waiting false } ∈ (s.clearOutputs.pollEnds b status tag check).cdu.queue) → returns t e := by
      intro e late early
      by_cases past : s.pastMiss e = true
      · have ⟨k, c⟩ := late past
        exact (if_pos past).mpr (taken' ⟨toReported.takes k, c⟩)
      · have ⟨k, mem⟩ := early ((Bool.not_eq_true _).mp past)
        exact (if_neg past).mpr ⟨same' (toReported.trans k), polls.pass.waits e false mem⟩
    have faults' : (s.clearOutputs.pollEnds b status tag check).sac.counters.bridgeFaults = bump s.sac.counters.bridgeFaults b 1
        ∧ (s.clearOutputs.pollEnds b status tag check).csu.causes.getLsbD 13 = true → faults t 1 := fun h =>
      ⟨by rw [polls.pass.sac]; exact h.1, fun _ => polls.pass.causes 13 h.2⟩
    have goodRow : ∀ {k}, good → statusKindOf status = some k →
        s.clearOutputs.pollEnds b status tag check = s.clearOutputs.pollGood b k status tag :=
      fun hg hk => State.pollEnds_of_good hk hg.1 b _
    have badRow : ¬good → s.clearOutputs.pollEnds b status tag check = s.clearOutputs.chargeMiss b := fun hg =>
      State.pollEnds_of_bad (fun h => hg ⟨h.1, (statusKindOf_isSome_iff status).mp h.2⟩) b _
    have missed' : ¬good → missed t ∧ t.bridge b = x.missed bit := fun hg => by
      have charged := State.chargeMiss_misses b s.clearOutputs
      rw [← badRow hg] at charged
      exact ⟨(congrArg (fun a : Sac => a.counters.bridgeMisses) polls.pass.sac).trans charged.counted, bridge.trans charged.bridge⟩
    refine ⟨fun out e busy he => ⟨fun hg hk ht => ?_, fun hg hk ht => ?_, fun hg hk => ?_, fun hg hk ht => ?_, fun hg hk => ?_,
      fun hg few => ?_, fun hg three => ?_⟩, fun free => ⟨?_, fun hg hk => ?_, fun hg hk => ?_, fun hg hk => ?_, fun hg => ?_⟩,
      fun c hc => (polls.pass.bridge c).trans (polls.touched.others c hc), all.mask, all.link, all.lcu, all.fdu, all.ppl, all.flight⟩
    · have row := (goodRow hg (statusKindOf_of_kind hk)).trans (State.pollGood_of_busy (s := s.clearOutputs) busy _ _ _)
      rw [State.pollBusy_cutting, if_pos ht] at row
      refine ⟨bridge.trans ?_, same' (row ▸ toReported), fun hw => polls.pass.keeps e (row ▸ he) fun y hy waiting seq => ?_⟩
      · rw [row, State.reported_bridge]
        rfl
      · rw [row] at hy
        rw [eq_of_nodup_map nodup hy he seq, hw] at waiting
        exact absurd waiting nofun
    · have row := (goodRow hg (statusKindOf_of_kind hk)).trans (State.pollGood_of_busy (s := s.clearOutputs) busy _ _ _)
      subst ht
      obtain ⟨freed, takes⟩ := State.pollBusy_cuts (s := s.clearOutputs.reported b status tag) (b := b)
        (State.entryOf_of_mem (s := s) nodup he) tag (status &&& 0x0F)
      rw [← row] at freed takes
      have k := (toReported.takes takes).then polls.pass.same
      refine ⟨bridge.trans ?_, k.outcomes, k.pieces⟩
      rw [freed, State.reported_bridge]
      exact Bridge.freed_of_clear rfl _ _
    · have row : s.clearOutputs.pollEnds b status tag check =
          ((s.clearOutputs.reported b status tag).endBusy b .idle).returnEntry e.piece.seq := by
        rcases hk with hk | ⟨hk, ht⟩
        · exact (goodRow hg (statusKindOf_of_kind hk)).trans (State.pollGood_of_busy (s := s.clearOutputs) busy _ _ _)
        · have row := (goodRow hg (statusKindOf_of_kind hk)).trans (State.pollGood_of_busy (s := s.clearOutputs) busy _ _ _)
          rwa [State.pollBusy_done, if_neg ht] at row
      have k := State.endBusy_returns (s := s.clearOutputs.reported b status tag) nodup he b .idle
      rw [← row] at k
      refine ⟨bridge.trans (k.bridge.trans ?_), returns' k.late k.early⟩
      rw [State.reported_bridge]
      exact Bridge.freed_of_clear rfl _ _
    · have row := (goodRow hg (statusKindOf_of_kind hk)).trans (State.pollGood_of_busy (s := s.clearOutputs) busy _ _ _)
      rw [State.pollBusy_cutting, if_neg ht] at row
      have k := State.endBusy_returns (s := s.clearOutputs.reported b status tag) nodup he b .notReady
      rw [← row] at k
      refine ⟨bridge.trans (k.bridge.trans ?_), returns' k.late k.early⟩
      rw [State.reported_bridge]
      exact Bridge.freed_of_clear rfl _ _
    · have row := (goodRow hg (statusKindOf_of_kind hk)).trans (State.pollGood_of_busy (s := s.clearOutputs) busy _ _ _)
      have k := State.pollBusy_fails (s := s.clearOutputs.reported b status tag) nodup he b out (status &&& 0x0F) tag
      rw [← row] at k
      refine ⟨bridge.trans (k.bridge.trans ?_), fun h => faults' (k.faulted h), fun h => ?_, fun h => ?_,
        fun h => returns' (k.late h) (k.early h)⟩
      · rw [State.reported_bridge]
        exact Bridge.freed_of_clear rfl _ _
      · rw [polls.pass.sac]
        exact k.disabled h
      · exact taken' ⟨toReported.takes (k.taken h).1, (k.taken h).2⟩
    · obtain ⟨counted, missed''⟩ := missed' hg
      have low : x.misses < 2 := by omega
      exact ⟨missed''.trans (Bridge.missed_of_few low _), counted,
        same' (badRow hg ▸ State.chargeMiss_same_of_few (s := s.clearOutputs) low)⟩
    · obtain ⟨counted, missed''⟩ := missed' hg
      have many : 2 ≤ x.misses := by omega
      refine ⟨missed''.trans ((Bridge.missed_of_busy many busy _).trans ?_), counted, taken' (badRow hg ▸
        State.chargeMiss_takes (s := s.clearOutputs) many busy (State.entryOf_of_mem (s := s) nodup he))⟩
      change Bridge.freed bit .offline { x with misses := misses } = _
      rw [three]
      rfl
    · by_cases hg : good
      · obtain ⟨k, hk⟩ := Option.isSome_iff_exists.mp ((statusKindOf_isSome_iff status).mpr hg.2)
        have row := (goodRow hg hk).trans (State.pollGood_of_free (s := s.clearOutputs) free _ _ _)
        exact same' (row ▸ toReported.trans (State.pollFree_sameEntries b k _ _))
      · exact same' (badRow hg ▸ (State.chargeMiss_free (s := s.clearOutputs) free).1)
    · have row : s.clearOutputs.pollEnds b status tag check = (s.clearOutputs.reported b status tag).setBridge b .idle := by
        rcases hk with hk | hk
        · exact (goodRow hg (statusKindOf_of_kind hk)).trans (State.pollGood_of_free (s := s.clearOutputs) free _ _ _)
        · exact (goodRow hg (statusKindOf_of_kind hk)).trans (State.pollGood_of_free (s := s.clearOutputs) free _ _ _)
      rw [bridge, row, State.setBridge, State.onBridge_bridge_same, State.reported_bridge]
      rfl
    · have row : s.clearOutputs.pollEnds b status tag check = (s.clearOutputs.reported b status tag).setBridge b .notReady :=
        (goodRow hg (statusKindOf_of_kind hk)).trans (State.pollGood_of_free (s := s.clearOutputs) free _ _ _)
      rw [bridge, row, State.setBridge, State.onBridge_bridge_same, State.reported_bridge]
      rfl
    · have row := (goodRow hg (statusKindOf_of_kind hk)).trans (State.pollGood_of_free (s := s.clearOutputs) free _ _ _)
      obtain ⟨failed, -, fresh, again⟩ := State.pollFree_fault b (status &&& 0x0F) (s.clearOutputs.reported b status tag)
      have state : ((s.clearOutputs.reported b status tag).bridge b).state = x.state := by
        rw [State.reported_bridge]
        rfl
      rw [← row] at failed fresh again
      refine ⟨bridge.trans (failed.trans ?_), fun h => faults' (fresh (state ▸ h)), fun h => ?_⟩
      · rw [State.reported_bridge]
      · rw [polls.pass.sac]
        exact again (state.trans h)
    · obtain ⟨counted, missed''⟩ := missed' hg
      refine ⟨counted, missed''.trans (Bridge.missed_of_free free _), fun three up => ?_⟩
      have many : 2 ≤ x.misses := by omega
      exact polls.pass.causes 13 (badRow hg ▸ (State.chargeMiss_free (s := s.clearOutputs) free).2 many up)

end Sys2Proof.Machine
end

section
/-! PROOFS. Commands of the slots: how one begins on a quiet part, completes, and runs on (R159, R160). -/

namespace Sys2Proof.Machine

variable {s t u : State}

/-! ### A command begins -/

/-- A ready command begins: its body acts, and the event is closed (R159). -/
theorem command_of_ready {n : Fin 8} {row : Command → Bool} {body : Fin 8 → Command → State → State} (h : s.readyFor n)
    (hrow : row (s.slot n).command = true) :
    beginning row body s = .next (body n (s.slot n).command (s.clearOutputs.takeCommand n)).finish := by
  obtain ⟨quiet, head, idle⟩ := h
  obtain ⟨rest, hfifo⟩ := List.head?_eq_some_iff.mp head
  have may : s.clearOutputs.mayBegin (s.slot n).command = true := by
    rw [State.mayBegin, show s.clearOutputs.csu.running = [] from idle]
    rfl
  have at_ : s.clearOutputs.commandAtHead row = some n := by
    unfold State.commandAtHead
    rw [show s.clearOutputs.csu.fifo = n :: rest from hfifo]
    exact if_pos (Bool.and_eq_true_iff.mpr ⟨hrow, may⟩)
  have begins : s.clearOutputs.begins row body = body n (s.slot n).command (s.clearOutputs.takeCommand n) := by
    unfold State.begins
    rw [at_]
    rfl
  rw [beginning, command_next (State.quiet_iff.mp quiet).1, begins]

/-! ### The close of an event in which a command begins -/

/-- The phase of a load that waits for what it staged (R37, R163). -/
def Phase.loadWaits : Phase → Bool
  | .tablesStaged _ => true
  | .referenceStaged => true
  | _ => false

/-- With no load waiting none is done. -/
theorem State.noLoadDone_of_no_load (h : ∀ r ∈ s.csu.running, r.phase.loadWaits = false) : s.noLoadDone = true := by
  have noTables : s.stagedLoad = none := by
    refine List.findSome?_eq_none_iff.mpr fun r hr => ?_
    have phase := h r hr
    split
    · next hp =>
      rw [hp] at phase
      exact nomatch phase
    · rfl
  have noReference : s.runningWith isReferenceStaged = none := by
    refine Option.map_eq_none_iff.mpr (List.find?_eq_none.mpr fun r hr hp => ?_)
    have phase := h r hr
    cases hr : r.phase <;> simp_all [isReferenceStaged, Phase.loadWaits]
  rw [State.noLoadDone, noTables, noReference, Option.isNone_none, Option.isNone_none, Bool.true_or, Bool.or_true]
  rfl

theorem no_load_of_idle (h : s.csu.running = []) : ∀ r ∈ s.csu.running, r.phase.loadWaits = false := by
  rw [h]
  exact fun _ hr => absurd hr List.not_mem_nil

theorem State.AtRest.of_no_load (h : s.AtRest) (hl : ∀ r ∈ t.csu.running, r.phase.loadWaits = false) (hrou : t.rou = s.rou)
    (ht : t.tru.transit = s.tru.transit) : t.AtRest where
  loads := State.noLoadDone_of_no_load hl
  writes ch := by
    have same : t.channel ch = s.channel ch := congrArg (fun r : Vector Channel 3 => r[ch]) hrou
    rw [← h.writes ch, State.canWrite, State.canWrite, same]
  candidate := by
    rw [← h.candidate]
    simp only [State.candidateClassified, State.candidate, ht]

/-- With no load waiting the close of an event leaves the command and status unit as it is. -/
theorem State.finish_csu (h : ∀ r ∈ s.csu.running, r.phase.loadWaits = false) : s.finish.csu = s.csu := by
  rw [State.finish, State.placeAll_csu, State.completeLoads_of_noLoadDone (State.noLoadDone_of_no_load h)]
  simp

/-! ### Completion -/

/-- From `s` to `t` the commands, the control window and the causes set are as before. -/
structure State.SparesCommands (s t : State) : Prop where
  slots : t.csu.slots = s.csu.slots
  fifo : t.csu.fifo = s.csu.fifo
  running : t.csu.running = s.csu.running
  controlBase : t.tru.controlBase = s.tru.controlBase
  causes : ∀ i, s.csu.causes.getLsbD i = true → t.csu.causes.getLsbD i = true

theorem State.SparesCommands.refl (s : State) : s.SparesCommands s := ⟨rfl, rfl, rfl, rfl, fun _ => id⟩

theorem State.SparesCommands.trans (h : s.SparesCommands t) (h' : t.SparesCommands u) : s.SparesCommands u :=
  ⟨h'.slots.trans h.slots, h'.fifo.trans h.fifo, h'.running.trans h.running, h'.controlBase.trans h.controlBase,
    fun i => h'.causes i ∘ h.causes i⟩

theorem State.raise_sparesCommands (c : Cause) (s : State) : s.SparesCommands (s.raise c) :=
  ⟨by simp, by simp, by simp, by simp, fun _ h => State.raise_keepsCauses h⟩

theorem State.produce_sparesCommands (ch : Fin 3) (b : RecordBody) (s : State) : s.SparesCommands (s.produce ch b) :=
  ⟨by simp, by simp, by simp, by simp, fun _ h => State.produce_keepsCauses h⟩

theorem subset_bits {x y : Word} (h : ∀ i, x.getLsbD i = true → y.getLsbD i = true) : (x ||| 1#32) &&& ~~~(y ||| 1#32) = 0#32 := by
  refine BitVec.eq_of_getLsbD_eq fun i hi => ?_
  have sub := h i
  simp only [BitVec.getLsbD_and, BitVec.getLsbD_or, BitVec.getLsbD_not, decide_eq_true hi, Bool.true_and, BitVec.getLsbD_zero]
  generalize x.getLsbD i = p at sub ⊢
  generalize y.getLsbD i = q at sub ⊢
  generalize (1#32).getLsbD i = r
  revert p q r
  decide

theorem State.takeCommand_slot_ne {n k : Fin 8} (h : k ≠ n) (s : State) : (s.takeCommand n).slot k = s.slot k :=
  State.onSlot_slot_ne s (fun x => { x with state := .running }) h

/-- A command in whose slot alone something runs completes when its body has spared the commands (R159, R160). -/
theorem State.completesAs_of_alone {n : Fin 8} {st : Status} {v : Word} {l : List Running} (h : s.readyFor n) (hl : ∀ r ∈ l, r.slot = n)
    (hu : State.SparesCommands { s.clearOutputs.takeCommand n with csu.running := l } u) :
    s.CompletesAs (u.complete n st v).finish n st v := by
  have after : (u.complete n st v).csu.running = [] := by
    rw [State.complete_running, hu.running]
    refine List.filter_eq_nil_iff.mpr fun r hr => ?_
    rw [hl r hr]
    simp
  have csu := State.finish_csu (no_load_of_idle after)
  have slotOf : ∀ k, u.slot k = (s.clearOutputs.takeCommand n).slot k := fun k => congrArg (fun v : Vector Slot 8 => v[k]) hu.slots
  have own : u.slot n = { s.slot n with state := .running } := (slotOf n).trans (State.takeCommand_slot_same n _)
  have slots : ∀ k, (u.complete n st v).finish.slot k = (u.complete n st v).slot k := fun k =>
    congrArg (fun c : Csu => c.slots[k]) csu
  refine ⟨?_, ?_, fun k hk => ?_, ?_, ?_, ?_⟩
  · rw [csu, State.complete_csu_fifo, hu.fifo]
    rfl
  · rw [slots, State.complete_slot_same, own]
  · rw [slots, State.complete_slot_ne u st v hk, slotOf, State.takeCommand_slot_ne hk]
    rfl
  · rw [csu, after, h.2.2]
  · rw [csu, State.complete_causes]
    exact subset_bits hu.causes
  · have request : u.resultRequest n st v = s.resultRequest n st v := by
      simp only [State.resultRequest, own, hu.controlBase]
      rfl
    obtain ⟨l, placing⟩ := State.complete_placing n st v u
    refine State.finish_requests ?_
    rw [placing, request]
    exact List.mem_append_right _ List.mem_cons_self

/-- A command that has begun with no other running completes when its body has spared the commands (R159, R160). -/
theorem State.completesAs {n : Fin 8} {st : Status} {v : Word} (h : s.readyFor n)
    (hu : (s.clearOutputs.takeCommand n).SparesCommands u) : s.CompletesAs (u.complete n st v).finish n st v :=
  State.completesAs_of_alone (l := s.csu.running) h (by rw [h.2.2]; exact fun _ hr => absurd hr List.not_mem_nil) hu

/-- A command that has begun with no other running runs on when its body has spared the commands (R159). -/
theorem State.runsIn {n : Fin 8} {p : Phase} (h : s.readyFor n) (hp : p.loadWaits = false)
    (hu : ((s.clearOutputs.takeCommand n).runs n p).SparesCommands u) : s.RunsIn u.finish n p := by
  obtain ⟨-, -, idle⟩ := h
  have running : u.csu.running = [{ slot := n, phase := p }] := by
    rw [hu.running]
    exact congrArg (· ++ [_]) idle
  have fresh : ∀ r ∈ u.csu.running, r.phase.loadWaits = false := by
    rw [running]
    intro r hr
    rw [List.mem_singleton.mp hr]
    exact hp
  have csu := State.finish_csu fresh
  have slots : ∀ k, u.finish.slot k = (s.clearOutputs.takeCommand n).slot k := fun k =>
    congrArg (fun v : Vector Slot 8 => v[k]) ((congrArg Csu.slots csu).trans hu.slots)
  refine ⟨?_, ?_, fun k hk => ?_, ?_⟩
  · rw [csu, hu.fifo]
    rfl
  · rw [slots, State.takeCommand_slot_same]
    rfl
  · rw [slots, State.takeCommand_slot_ne hk]
    rfl
  · rw [csu, running, idle]
    rfl

end Sys2Proof.Machine
end

section
/-! PROOFS. The shift timer and the close of a shift (O51, O52), slot writes, acknowledgement and enable (O53, O54). -/

namespace Sys2Proof.Machine

variable {s t u : State}

/-! ### The shift timer -/

theorem State.tick_closed (s : State) : s.tick.closed = s.closed := by
  unfold State.tick State.timerStep
  dsimp only
  split
  · split
    · split
      · rfl
      · rfl
    · rfl
  · split
    · rfl
    · rfl

theorem exec_millisecondTick (hq : s.quiet = true) (he : s.sac.expired = false) :
    exec .millisecondTick s = .next (if s.sac.running then s.clearOutputs.tick else s.clearOutputs) := by
  obtain ⟨settled, closed⟩ := State.quiet_iff.mp hq
  have high : ¬s.porstLow = true := by rw [State.porstLow_of_settled settled]; exact nofun
  have none : s.clearOutputs.settleShift = s.clearOutputs := State.ifOwed_of_not he
  have after : (if s.sac.running = true then s.clearOutputs.tick else s.clearOutputs).closed = true := by
    split
    · exact (State.tick_closed _).trans closed
    · exact closed
  rw [exec, execMillisecondTick, if_neg high, State.settle_clearOutputs settled, none, State.event]
  exact congrArg Host.Outcome.next (State.finish_of_closed after)

/-- A tick at which the timer steps, in either mode (R152). -/
theorem State.tick_steps (h : s.sac.params.coarse = false ∨ 1000 ≤ s.sac.tickCount + 1) :
    s.tick = State.timerStep { s with
      sac.prescaleCount := 0, sac.tickCount := if s.sac.params.coarse then 0 else s.sac.tickCount } := by
  unfold State.tick
  dsimp only
  cases hc : s.sac.params.coarse with
  | false => rfl
  | true =>
    rw [if_pos rfl, if_pos rfl]
    exact if_pos (h.resolve_left (by rw [hc]; exact nofun))

/-- Settles O51. -/
theorem timerSteps : Obligations.TimerSteps := by
  intro s hq he quieted last
  rw [exec_millisecondTick hq he]
  refine ⟨fun stopped => ?_, fun running coarse few => ?_, fun running steps => ?_⟩
  · rw [stopped]
    rfl
  · rw [running, if_pos rfl, State.tick, if_pos (by exact coarse), if_neg (by exact Nat.not_le.mpr few)]
    rfl
  · intro tick
    rw [if_pos running, State.tick_steps (s := s.clearOutputs) steps, State.timerStep]
    exact ⟨fun h => congrArg Host.Outcome.next (if_pos h), fun h => congrArg Host.Outcome.next (if_neg h)⟩

/-! ### The close of a shift -/

/-- The sums and the start of the shift that a close opens (R155). -/
def Sac.opened (reason : ShiftReason) (counter : Pos) (a : Sac) : Sac :=
  { a with counters := .zero, number := nextSequence a.number, startPos := counter, openReason := reason }

theorem State.closeShift_sac_of_room (reason : ShiftReason) (room : (s.channel 2).queue.length < 4) :
    (s.closeShift reason).sac = s.sac.opened reason s.lcu.counter := by
  unfold State.closeShift State.produce
  dsimp only
  rw [State.raise_sac, if_pos (by exact room)]
  rfl

/-- The report of the shift that closes is queued (R155, R156). -/
theorem State.closeShift_queue_of_room (reason : ShiftReason) (room : (s.channel 2).queue.length < 4) :
    ((s.closeShift reason).channel 2).queue =
      (s.channel 2).queue ++ [{ seq := (s.channel 2).nextSeq, body := .report (s.shiftReport reason) }] := by
  unfold State.closeShift
  dsimp only
  rw [State.raise_channel, chReport, State.produce_channel, if_pos (by exact room)]
  rfl

/-- The close of a shift concerns the shift, its records and the causes alone. -/
theorem State.closeShift_frame (reason : ShiftReason) (s : State) :
    (s.closeShift reason).lcu = s.lcu ∧ (s.closeShift reason).fdu = s.fdu ∧ (s.closeShift reason).ppl = s.ppl
      ∧ (s.closeShift reason).cdu = s.cdu ∧ (s.closeShift reason).csu.causes.getLsbD 1 = true ∧ s.SparesCommands (s.closeShift reason) := by
  have opened : s.SparesCommands { s with sac := s.sac.opened reason s.lcu.counter } := ⟨rfl, rfl, rfl, rfl, fun _ => id⟩
  refine ⟨?_, ?_, ?_, ?_, State.raise_bit .shiftClosed _,
    (opened.trans (State.produce_sparesCommands _ _ _)).trans (State.raise_sparesCommands _ _)⟩
  · simp [State.closeShift]
  · simp [State.closeShift]
  · simp [State.closeShift]
  · simp [State.closeShift]

/-- The close of an event changes of a channel its activity alone. -/
theorem State.finish_channel (s : State) (ch : Fin 3) : ∃ a, s.finish.channel ch = { s.channel ch with activity := a } := by
  have one : ∀ (k : Fin 3) (u : State), ∃ a, (u.writeNext k).channel ch = { u.channel ch with activity := a } := by
    intro k u
    unfold State.writeNext
    dsimp only
    split
    · split
      · rw [State.place_channel]
        by_cases h : ch = k
        · subst h
          exact ⟨.writing, State.onChannel_channel_same u ch _⟩
        · exact ⟨(u.channel ch).activity, State.onChannel_channel_ne u _ h⟩
      · exact ⟨_, rfl⟩
    · exact ⟨_, rfl⟩
  obtain ⟨a, ha⟩ := one 0 s.completeLoads
  obtain ⟨b, hb⟩ := one 1 (s.completeLoads.writeNext 0)
  obtain ⟨c, hc⟩ := one 2 ((s.completeLoads.writeNext 0).writeNext 1)
  refine ⟨c, ?_⟩
  rw [State.finish, State.placeAll_channel, State.classifyCandidate_channel, State.writeAll, hc, hb, ha, State.completeLoads_channel]

/-- From `s` to `t` the open shift has closed, with its report queued; its timer may have been restarted or stopped (R153, R155, R156). -/
structure State.ShiftClosed (reason : ShiftReason) (s t : State) : Prop where
  counters : t.sac.counters = .zero
  number : t.sac.number = nextSequence s.sac.number
  startPos : t.sac.startPos = s.lcu.counter
  openReason : t.sac.openReason = reason
  params : t.sac.params = s.sac.params
  queue : (t.channel 2).queue = (s.channel 2).queue ++ [{ seq := (s.channel 2).nextSeq, body := .report (s.shiftReport reason) }]
  cause : t.csu.causes.getLsbD 1 = true
  lcu : t.lcu = s.lcu
  fdu : t.fdu = s.fdu
  ppl : t.ppl = s.ppl
  cdu : t.cdu = s.cdu

theorem State.closeShift_closed (reason : ShiftReason) (room : (s.channel 2).queue.length < 4) :
    State.ShiftClosed reason s (s.closeShift reason) := by
  obtain ⟨lcu, fdu, ppl, cdu, cause, -⟩ := s.closeShift_frame reason
  have sac := State.closeShift_sac_of_room reason room
  exact ⟨by rw [sac]; rfl, by rw [sac]; rfl, by rw [sac]; rfl, by rw [sac]; rfl, by rw [sac]; rfl,
    State.closeShift_queue_of_room reason room, cause, lcu, fdu, ppl, cdu⟩

theorem State.ShiftClosed.finish {reason : ShiftReason} (h : State.ShiftClosed reason s t) : State.ShiftClosed reason s t.finish := by
  obtain ⟨a, channel⟩ := t.finish_channel 2
  refine ⟨by rw [State.finish_sac, h.counters], by rw [State.finish_sac, h.number], by rw [State.finish_sac, h.startPos],
    by rw [State.finish_sac, h.openReason], by rw [State.finish_sac, h.params], ?_, State.finish_causes h.cause,
    by rw [State.finish_lcu, h.lcu], by rw [State.finish_fdu, h.fdu], by rw [State.finish_ppl, h.ppl], by rw [State.finish_cdu, h.cdu]⟩
  rw [channel]
  exact h.queue

theorem State.ShiftClosed.complete {reason : ShiftReason} (h : State.ShiftClosed reason s t) (n : Fin 8) (st : Status) (v : Word) :
    State.ShiftClosed reason s (t.complete n st v) :=
  ⟨by rw [State.complete_sac, h.counters], by rw [State.complete_sac, h.number], by rw [State.complete_sac, h.startPos],
    by rw [State.complete_sac, h.openReason], by rw [State.complete_sac, h.params], by rw [State.complete_channel, h.queue],
    (t.complete_adds n st v).causes 1 h.cause, by rw [State.complete_lcu, h.lcu], by rw [State.complete_fdu, h.fdu],
    by rw [State.complete_ppl, h.ppl], by rw [State.complete_cdu, h.cdu]⟩

/-- Settles O52. -/
theorem shiftCloses : Obligations.ShiftCloses := by
  unfold Obligations.ShiftCloses
  intro closes restarted
  have closes' : ∀ (s u t : State) (reason : ShiftReason), u.lcu = { s.lcu with ltrig := false } → u.fdu = s.fdu → u.ppl = s.ppl →
      u.cdu = s.cdu → u.sac = s.sac → u.channel 2 = s.channel 2 → State.ShiftClosed reason u t → closes s t reason := by
    intro s u t reason lcu fdu ppl cdu sac channel h
    refine ⟨h.counters, h.number.trans (by rw [sac]; rfl), h.startPos.trans (by rw [lcu]), h.openReason, h.params.trans (by rw [sac]),
      h.queue.trans ?_, h.cause, h.lcu.trans lcu, h.fdu.trans fdu, h.ppl.trans ppl, h.cdu.trans cdu⟩
    rw [channel, State.shiftReport, sac, lcu]
  constructor
  · intro s hq expired room
    have closed : State.ShiftClosed .timer s.clearOutputs (s.clearOutputs.closeShift .timer) := State.closeShift_closed .timer room
    have start : exec .shiftTimerExpiry s = .next (s.clearOutputs.shiftExpiry).finish := by
      rw [exec, execShiftTimerExpiry, command_next (State.quiet_iff.mp hq).1, if_pos (by exact expired)]
    refine ⟨_, start, ?_⟩
    cases hr : s.sac.params.repeats with
    | true =>
      have restarts : s.clearOutputs.shiftExpiry = (s.clearOutputs.closeShift .timer).restartTimer :=
        if_pos (by rw [closed.params]; exact hr)
      rw [restarts]
      have after : State.ShiftClosed .timer s.clearOutputs (s.clearOutputs.closeShift .timer).restartTimer := { closed with }
      refine ⟨closes' s s.clearOutputs _ _ rfl rfl rfl rfl rfl rfl after.finish, fun _ => ?_, nofun⟩
      simp only [restarted, State.finish_sac]
      exact ⟨rfl, rfl, rfl, rfl, rfl⟩
    | false =>
      have stops : s.clearOutputs.shiftExpiry = { (s.clearOutputs.closeShift .timer).stopTimer with sac.stepCount := 0 } :=
        if_neg (by rw [closed.params]; exact fun h => nomatch hr.symm.trans h)
      rw [stops]
      have after : State.ShiftClosed .timer s.clearOutputs { (s.clearOutputs.closeShift .timer).stopTimer with sac.stepCount := 0 } :=
        { closed with }
      refine ⟨closes' s s.clearOutputs _ _ rfl rfl rfl rfl rfl rfl after.finish, nofun, fun _ => ?_⟩
      rw [State.finish_sac]
      exact ⟨rfl, rfl, (congrArg Sac.tickCount (State.closeShift_sac_of_room (s := s.clearOutputs) .timer room) :), rfl⟩
  · intro s n ready code room
    obtain ⟨v, hv⟩ : ∃ v, v = s.clearOutputs.takeCommand n := ⟨_, rfl⟩
    have room' : (v.channel 2).queue.length < 4 := by rw [hv]; exact room
    have closed : State.ShiftClosed .command v (v.closeShift .command) := State.closeShift_closed .command room'
    have sac : v.sac = s.sac := by rw [hv]; rfl
    have start : exec .endShift s = .next ((v.endShift.complete n .ok s.sac.number).finish) := by
      rw [exec, execEndShift, command_of_ready ready (by rw [hasCode, code]; rfl), beginEndShift, ← hv, sac]
    have spares : v.SparesCommands v.endShift := by
      obtain ⟨-, -, -, -, -, spares⟩ := v.closeShift_frame .command
      unfold State.endShift
      dsimp only
      split
      · exact { spares with }
      · exact spares
    refine ⟨_, start, State.completesAs ready (hv ▸ spares), ?_⟩
    have closes'' : ∀ t, State.ShiftClosed .command v t → closes s (t.complete n .ok s.sac.number).finish .command := fun t h =>
      closes' s v _ _ (by rw [hv]; rfl) (by rw [hv]; rfl) (by rw [hv]; rfl) (by rw [hv]; rfl) sac (by rw [hv]; rfl)
        (h.complete n .ok s.sac.number).finish
    cases he : s.sac.params.enabled with
    | true =>
      have restarts : v.endShift = (v.closeShift .command).restartTimer := if_pos (by rw [closed.params, sac]; exact he)
      rw [restarts]
      refine ⟨closes'' _ { closed with }, fun _ => ?_, nofun⟩
      simp only [restarted, State.finish_sac, State.complete_sac]
      exact ⟨rfl, rfl, rfl, rfl, rfl⟩
    | false =>
      have stays : v.endShift = v.closeShift .command :=
        if_neg (by rw [closed.params, sac]; exact fun h => nomatch he.symm.trans h)
      rw [stays]
      refine ⟨closes'' _ closed, nofun, fun _ => ?_⟩
      rw [State.finish_sac, State.complete_sac, State.closeShift_sac_of_room .command room', sac]
      exact ⟨rfl, rfl⟩

/-! ### Snooped words -/

/-- Bit `i` of a byte mask is the enable of its byte. -/
theorem getLsbD_byteMask (enables : BitVec 4) {i : Nat} (h : i < 32) : (byteMask enables).getLsbD i = enables.getLsbD (i / 8) := by
  have all : ∀ (e : BitVec 4) (k : Fin 32), (byteMask e).getLsbD k = e.getLsbD (k / 8) := by decide
  exact all enables ⟨i, h⟩

theorem getLsbD_mergeWord (old new : Word) (enables : BitVec 4) {i : Nat} (h : i < 32) :
    (mergeWord old new enables).getLsbD i = if enables.getLsbD (i / 8) then new.getLsbD i else old.getLsbD i := by
  rw [mergeWord, BitVec.getLsbD_or, BitVec.getLsbD_and, BitVec.getLsbD_and, BitVec.getLsbD_not, decide_eq_true h, getLsbD_byteMask enables h]
  cases enables.getLsbD (i / 8) with
  | true => simp
  | false => simp

/-- A command's code is the low byte of its go word (11.2). -/
theorem commandOf_code_ne_zero_iff (copy : Vector Word 6) : (commandOf copy).code ≠ 0 ↔ copy[0].toNat % 256 ≠ 0 := by
  have code : (commandOf copy).code.toNat = copy[0].toNat % 256 := BitVec.toNat_setWidth 8 copy[0]
  rw [← code]
  exact not_congr ⟨fun h => by rw [h]; rfl, fun h => BitVec.eq_of_toNat_eq h⟩

theorem State.onSlot_onSlot (n : Fin 8) (f g : Slot → Slot) (s : State) : (s.onSlot n f).onSlot n g = s.onSlot n (g ∘ f) := by
  simp [State.onSlot, State.slot]

section
variable {n : Fin 8} {data : List Byte} {enables : BitVec 32}

/-- The copy of slot `n` after a beat (R158). -/
def State.mergedCopy (s : State) (n : Fin 8) (data : List Byte) (enables : BitVec 32) : Vector Word 6 :=
  mergeCopy (s.slot n).copy data enables

/-- A beat that writes no go word with a code changes the copy alone (R158). -/
theorem State.slotBeat_of_unwritten (h : ¬(enables.getLsbD 0 = true ∧ (commandOf (s.mergedCopy n data enables)).code ≠ 0)) :
    s.slotBeat n data enables = s.onSlot n fun x => { x with copy := s.mergedCopy n data enables } :=
  if_neg h

/-- A written go word queues the command of a FREE slot (R158). -/
theorem State.slotBeat_of_free (h : enables.getLsbD 0 = true ∧ (commandOf (s.mergedCopy n data enables)).code ≠ 0)
    (free : (s.slot n).state = .free) :
    s.slotBeat n data enables =
      { s.onSlot n fun x => { x with
          copy := s.mergedCopy n data enables, state := .queued, command := commandOf (s.mergedCopy n data enables) } with
        csu.fifo := s.csu.fifo ++ [n] } := by
  refine (if_pos h).trans ?_
  rw [State.onSlot_slot_same, free]
  dsimp only
  rw [State.onSlot_onSlot]
  rfl

/-- A written go word sets the overrun flag of a slot that is not FREE (R158). -/
theorem State.slotBeat_of_taken (h : enables.getLsbD 0 = true ∧ (commandOf (s.mergedCopy n data enables)).code ≠ 0)
    (taken : (s.slot n).state ≠ .free) :
    s.slotBeat n data enables = s.onSlot n fun x => { x with copy := s.mergedCopy n data enables, overrun := true } := by
  refine (if_pos h).trans ?_
  rw [State.onSlot_slot_same]
  cases hs : (s.slot n).state with
  | free => exact absurd hs taken
  | queued => exact State.onSlot_onSlot n _ _ s
  | running => exact State.onSlot_onSlot n _ _ s

end

/-- Settles O53. -/
theorem slotWriteQueues : Obligations.SlotWriteQueues := by
  refine ⟨fun old new enables i => getLsbD_mergeWord old new enables, fun s n data enables hq => ?_⟩
  intro copy written into
  have go : written ↔ enables.getLsbD 0 = true ∧ (commandOf (s.mergedCopy n data enables)).code ≠ 0 :=
    and_congr_right fun _ => (commandOf_code_ne_zero_iff copy).symm
  refine ⟨fun h => ?_, fun h free => ?_, fun h taken => ?_⟩
  · have beat := State.slotBeat_of_unwritten (s := s.clearOutputs) (n := n) (mt go.mpr h)
    exact (command_of_quiet hq (by rw [beat]; rfl)).trans (by rw [beat]; rfl)
  · have beat := State.slotBeat_of_free (s := s.clearOutputs) (go.mp h) free
    exact (command_of_quiet hq (by rw [beat]; rfl)).trans (by rw [beat]; rfl)
  · have beat := State.slotBeat_of_taken (s := s.clearOutputs) (go.mp h) taken
    exact (command_of_quiet hq (by rw [beat]; rfl)).trans (by rw [beat]; rfl)

theorem State.setCauses_of_eq (s : State) : s.setCauses s.csu.causes = s := if_pos rfl

theorem State.setCauses_of_ne {w : Word} (h : w ≠ s.csu.causes) : s.setCauses w = { s with csu.causes := w }.requestStatus := if_neg h

/-- What taking another cause word does, and what it leaves as it was (R164). -/
theorem State.setCauses_facts (s : State) (w : Word) :
    (∃ waits, (s.setCauses w).csu = { s.csu with causes := w, statusWaiting := waits } ∧ (w ≠ s.csu.causes → waits = true))
      ∧ (s.setCauses w).lcu = s.lcu ∧ (s.setCauses w).fdu = s.fdu ∧ (s.setCauses w).ppl = s.ppl ∧ (s.setCauses w).cdu = s.cdu
      ∧ (s.setCauses w).sac = s.sac ∧ (s.setCauses w).rou = s.rou ∧ (s.setCauses w).tru.flight = s.tru.flight
      ∧ (s.setCauses w).tru.transit = s.tru.transit ∧ (s.setCauses w).tru.ackShadow = s.tru.ackShadow
      ∧ (s.setCauses w).tru.enableShadow = s.tru.enableShadow := by
  by_cases same : w = s.csu.causes
  · subst same
    rw [State.setCauses_of_eq]
    exact ⟨⟨s.csu.statusWaiting, rfl, fun h => absurd rfl h⟩, rfl, rfl, rfl, rfl, rfl, rfl, rfl, rfl, rfl, rfl⟩
  · rw [State.setCauses_of_ne same]
    exact ⟨⟨true, State.requestStatus_csu _, fun _ => rfl⟩, by simp⟩

/-- Two words share a bit iff they do not clear each other (R165). -/
theorem and_ne_zero_iff (a b : Word) : a &&& b ≠ 0 ↔ ∃ i, i < 32 ∧ a.getLsbD i = true ∧ b.getLsbD i = true := by
  constructor
  · intro h
    refine Classical.byContradiction fun none => h (BitVec.eq_of_getLsbD_eq fun i hi => ?_)
    rw [BitVec.getLsbD_and, show (0 : Word).getLsbD i = false from BitVec.getLsbD_zero, Bool.and_eq_false_iff]
    refine Classical.byContradiction fun both => ?_
    rw [not_or, Bool.not_eq_false, Bool.not_eq_false] at both
    exact none ⟨i, hi, both⟩
  · rintro ⟨i, -, ha, hb⟩ h
    have bit := congrArg (BitVec.getLsbD · i) h
    simp [ha, hb] at bit

/-- Settles O54. -/
theorem acknowledgeAndEnable : Obligations.AcknowledgeAndEnable := by
  intro s word enables hq
  refine ⟨?_, ?_, ?_⟩
  · obtain ⟨settled, closed⟩ := State.quiet_iff.mp hq
    obtain ⟨w, hw⟩ : ∃ w, w = s.csu.causes &&& ~~~(word &&& byteMask enables) := ⟨_, rfl⟩
    obtain ⟨u, hu⟩ : ∃ u, u = { s.clearOutputs with tru.ackShadow := mergeWord s.tru.ackShadow word enables } := ⟨_, rfl⟩
    obtain ⟨⟨waits, csu, asked⟩, lcu, fdu, ppl, cdu, sac, rou, flight, transit, ack, enabled⟩ := State.setCauses_facts u w
    have runs : exec (.acknowledgeWrite word enables) s = .next (u.setCauses w).finish := by
      rw [hw, hu]
      exact command_next settled
    have rest : (u.setCauses w).AtRest :=
      (State.AtRest.congr (s := u) (by rw [hu]; exact (State.closed_iff.mp closed).1.congr rfl rfl rfl rfl rfl)) (by rw [csu])
        (by simp only [State.nothingStaged, fdu, ppl, cdu])
        (by rw [fdu]) rou transit
    rw [rest.finish] at runs
    refine ⟨_, runs, fun i hi => ?_, ack.trans (by rw [hu]), fun h => ?_, ?_, ?_, ?_, enabled.trans (by rw [hu]; rfl),
      flight.trans (by rw [hu]; rfl), lcu.trans (by rw [hu]; rfl), fdu.trans (by rw [hu]; rfl), ppl.trans (by rw [hu]; rfl),
      cdu.trans (by rw [hu]; rfl), sac.trans (by rw [hu]; rfl), rou.trans (by rw [hu]; rfl)⟩
    all_goals rw [State.placeAll_csu, csu]
    · dsimp only
      rw [hw, BitVec.getLsbD_and, BitVec.getLsbD_not, BitVec.getLsbD_and, decide_eq_true hi, getLsbD_byteMask enables hi, Bool.true_and]
    · refine asked fun same => h ?_
      rw [State.placeAll_csu, csu, same, hu]
      rfl
    all_goals rw [hu]; rfl
  · rw [exec, execEventEnableWrite, command_of_quiet hq rfl]
    rfl
  · have low : s.porstLow = false := (State.settled_iff.mp (State.quiet_iff.mp hq).1).1
    rw [← and_ne_zero_iff, State.irq, low, Bool.not_false, Bool.true_and, decide_eq_true_iff]

end Sys2Proof.Machine
end

section
/-! PROOFS. The answers the transit unit gives upstream: those of memory and those of fully masked writes (O41, O44). -/

namespace Sys2Proof.Machine

variable {s t : State}

/-! ### The close of an event of the transit unit -/

/-- What no record write and no load waits for is closed by classifying the candidate and placing own requests. -/
theorem State.finish_of_no_write (hl : s.noLoadDone = true) (hw : ∀ ch, s.canWrite ch = false) :
    s.finish = s.classifyCandidate.placeAll := by
  rw [State.finish, State.completeLoads_of_noLoadDone hl, State.writeAll, State.writeNext_of_not (hw 0),
    State.writeNext_of_not (hw 1), State.writeNext_of_not (hw 2)]

/-- Loads and record writes do not see the transit queue. -/
theorem State.AtRest.waits (h : s.AtRest) (hrun : t.csu.running = s.csu.running) (hfdu : t.fdu = s.fdu) (hppl : t.ppl = s.ppl)
    (hcdu : t.cdu = s.cdu) (hrou : t.rou = s.rou) : t.noLoadDone = true ∧ ∀ ch, t.canWrite ch = false := by
  have staged : t.nothingStaged = s.nothingStaged := by rw [State.nothingStaged, State.nothingStaged, hfdu, hppl, hcdu]
  refine ⟨?_, fun ch => ?_⟩
  · rw [← h.loads]
    simp only [State.noLoadDone, State.stagedLoad, State.runningWith, hrun, staged, hfdu]
  · have same : t.channel ch = s.channel ch := congrArg (fun r : Vector Channel 3 => r[ch]) hrou
    rw [← h.writes ch, State.canWrite, State.canWrite, same]

/-! ### Hits -/

/-- `t` is `s` with `n` beats hit counted (R129). -/
structure State.CountsHits (n : Nat) (s t : State) : Prop where
  lcu : t.lcu = s.lcu
  fdu : t.fdu = s.fdu
  ppl : t.ppl = s.ppl
  cdu : t.cdu = s.cdu
  rou : t.rou = s.rou
  slots : t.csu.slots = s.csu.slots
  fifo : t.csu.fifo = s.csu.fifo
  running : t.csu.running = s.csu.running
  inspection : t.csu.inspection = s.csu.inspection
  transit : t.tru.transit = s.tru.transit
  own : t.tru.own = s.tru.own
  flight : t.tru.flight = s.tru.flight
  share : t.tru.share = s.tru.share
  answers : t.tru.answers = s.tru.answers
  params : t.tru.params = s.tru.params
  shadows : t.tru.ackShadow = s.tru.ackShadow ∧ t.tru.enableShadow = s.tru.enableShadow ∧ t.tru.stopShadow = s.tru.stopShadow
  hits : t.tru.hits = s.tru.hits + BitVec.ofNat 32 n
  counted : n ≠ 0 →
    t.sac.counters.protectedBeats = satAdd max32 s.sac.counters.protectedBeats n ∧ t.csu.causes.getLsbD 15 = true
  uncounted : n = 0 → t = s

theorem State.countHits_counts (n : Nat) (s : State) : s.CountsHits n (s.countHits n) := by
  by_cases none : n = 0
  · have same : s.countHits n = s := if_pos none
    rw [same, none]
    exact ⟨rfl, rfl, rfl, rfl, rfl, rfl, rfl, rfl, rfl, rfl, rfl, rfl, rfl, rfl, rfl, ⟨rfl, rfl, rfl⟩, (BitVec.add_zero _).symm,
      fun h => absurd rfl h, fun _ => rfl⟩
  · have counted : s.countHits n = ({ s with tru.hits := s.tru.hits + BitVec.ofNat 32 n }.count fun k =>
        { k with protectedBeats := satAdd max32 k.protectedBeats n }).raise .protectHit := if_neg none
    rw [counted]
    exact {
      lcu := State.raise_lcu _ _, fdu := State.raise_fdu _ _, ppl := State.raise_ppl _ _, cdu := State.raise_cdu _ _
      rou := State.raise_rou _ _, slots := State.raise_csu_slots _ _, fifo := State.raise_csu_fifo _ _
      running := State.raise_csu_running _ _, inspection := State.raise_csu_inspection _ _
      transit := State.raise_tru_transit _ _, own := State.raise_tru_own _ _, flight := State.raise_tru_flight _ _
      share := State.raise_tru_share _ _, answers := State.raise_tru_answers _ _, params := State.raise_tru_params _ _
      shadows := ⟨State.raise_tru_ackShadow _ _, State.raise_tru_enableShadow _ _, State.raise_tru_stopShadow _ _⟩
      hits := State.raise_tru_hits _ _
      counted := fun _ => ⟨congrArg (fun x : Sac => x.counters.protectedBeats) (State.raise_sac _ _), State.raise_bit .protectHit _⟩
      uncounted := fun h => absurd h none }

/-! ### The head of the transit queue -/

/-- With the entry at the head READY, it and the READY entries behind it are answered (R125). -/
theorem State.answerUpstream_of_head {e : TransitEntry} {rest : List TransitEntry} (hs : s.tru.transit = e :: rest)
    (he : e.state = .ready) :
    s.answerUpstream.tru.transit = rest.dropWhile (fun x => decide (x.state = .ready))
      ∧ s.answerUpstream.tru.answers = s.tru.answers ++ { tag := e.req.tag, data := e.answer }
          :: (rest.takeWhile fun x => decide (x.state = .ready)).map fun x => { tag := x.req.tag, data := x.answer } := by
  have ready : decide (e.state = .ready) = true := decide_eq_true he
  rw [State.answerUpstream_transit, State.answerUpstream_answers, hs]
  exact ⟨List.dropWhile_cons_of_pos (by exact ready),
    congrArg (fun l => s.tru.answers ++ l.map fun x : TransitEntry => ({ tag := x.req.tag, data := x.answer } : Answer))
      (List.takeWhile_cons_of_pos (by exact ready))⟩

/-- No READY entry is the candidate. -/
theorem find?_isPending_dropWhile_ready (l : List TransitEntry) :
    (l.dropWhile fun x => decide (x.state = .ready)).find? TransitEntry.isPending = l.find? TransitEntry.isPending := by
  induction l with
  | nil => rfl
  | cons e l ih =>
    by_cases ready : e.state = .ready
    · have unpending : e.isPending = false := by rw [TransitEntry.isPending, ready]; rfl
      rw [List.dropWhile_cons_of_pos (by exact decide_eq_true ready), ih, List.find?_cons_of_neg (by rw [unpending]; nofun)]
    · rw [List.dropWhile_cons_of_neg (by simpa using ready)]

/-- Memory answers the head of the transit queue. -/
theorem State.downstreamAnswer_of_head {e : TransitEntry} {sent : Request} {rest : List TransitEntry} {flight : List InFlight}
    {data : List Byte} (hflight : s.tru.flight = .transit sent :: flight) (htransit : s.tru.transit = e :: rest)
    (he : e.state = .forwarded) (hlength : data.length = if e.req.kind = .read then e.req.length * beatBytes else 0) :
    s.downstreamAnswer data = State.answerUpstream
      { s with
        tru.flight := flight
        tru.transit := { e with state := .ready, answer := if e.req.kind = .read then data else [] } :: rest } := by
  have expected : data.length = s.answerLength := by
    rw [hlength, State.answerLength, htransit, List.find?_cons_of_pos (by exact decide_eq_true he)]
  have first : (e.state == .forwarded) = true := by rw [he]; rfl
  simp only [State.downstreamAnswer, State.answered, hflight, if_pos expected, State.transitAnswered, htransit, onFirst, if_pos first]

/-- Settles O44. -/
theorem downstreamAnswer : Obligations.DownstreamAnswer := by
  intro s e sent rest flight data hq hflight htransit hstate hlength
  have length : data.length = if e.req.kind = .read then e.req.length * beatBytes else 0 := by
    rw [hlength, Nat.mul_comm]
    rfl
  have answer : (if e.req.kind = .read then data else []) = data := by
    by_cases read : e.req.kind = .read
    · rw [if_pos read]
    · rw [if_neg read]
      rw [if_neg read] at length
      exact (List.length_eq_zero_iff.mp length).symm
  obtain ⟨u, hu⟩ : ∃ u, u = { s.clearOutputs with
      tru.flight := flight
      tru.transit := { e with state := .ready, answer := if e.req.kind = ReqKind.read then data else [] } :: rest } := ⟨_, rfl⟩
  have ends : s.clearOutputs.downstreamAnswer data = u.answerUpstream := by
    rw [hu]
    exact State.downstreamAnswer_of_head (s := s.clearOutputs) hflight htransit hstate length
  obtain ⟨transit, answers⟩ := State.answerUpstream_of_head (s := u) (by rw [hu]) rfl
  have unpending : ¬e.isPending = true := by rw [TransitEntry.isPending, hstate]; nofun
  have candidate : u.answerUpstream.candidate = s.candidate := by
    rw [State.candidate, transit, find?_isPending_dropWhile_ready, State.candidate, htransit, List.find?_cons_of_neg unpending]
  have closed : (s.clearOutputs.downstreamAnswer data).closed = s.closed := by
    rw [ends, State.closed, State.candidateClassified, candidate, State.answerUpstream, hu]
    rfl
  have after : u.answerUpstream = { u with tru.transit := u.answerUpstream.tru.transit, tru.answers := u.answerUpstream.tru.answers } :=
    rfl
  rw [exec, execDownstreamAnswer, command_of_quiet hq closed, ends, after, transit, answers, answer, hu]
  rfl

/-! ### Fully masked writes -/

theorem onFirst_cons_of_pos {f : TransitEntry → Bool} {g : TransitEntry → TransitEntry} {e : TransitEntry} {l : List TransitEntry}
    (h : f e = true) : onFirst f g (e :: l) = g e :: l := if_pos h

/-- A fully masked candidate at the head is READY at once, its hits counted (R126). -/
theorem State.forwardMasked_of_head {e : TransitEntry} {rest : List TransitEntry} (htransit : s.tru.transit = e :: rest)
    (he : e.isPending = true) (hm : e.fullyMasked = true) :
    s.maskedCandidate = some e ∧ s.forwardMasked =
      (State.countHits e.hits { s with tru.transit := { e with state := .ready } :: rest }).answerUpstream := by
  have candidate : s.candidate = some e := by rw [State.candidate, htransit, List.find?_cons_of_pos he]
  have masked : s.maskedCandidate = some e := by simp only [State.maskedCandidate, candidate, hm, if_true]
  refine ⟨masked, ?_⟩
  have takes : s.candidateTakes .ready = { s with tru.transit := { e with state := .ready } :: rest } := by
    rw [State.candidateTakes, htransit, onFirst_cons_of_pos he]
  simp only [State.forwardMasked, masked]
  rw [State.forward_of_masked hm, takes]

/-- Settles O41. -/
theorem fullyMaskedWriteIsAnswered : Obligations.FullyMaskedWriteIsAnswered := by
  intro s e rest low closed he htransit hstate hmasked hrest
  have pending : e.isPending = true := by rw [TransitEntry.isPending, hstate]; rfl
  obtain ⟨masked, forwards⟩ := State.forwardMasked_of_head (s := s.clearOutputs) htransit pending hmasked
  obtain ⟨u, hu⟩ : ∃ u : State, u = { s.clearOutputs with tru.transit := { e with state := .ready } :: rest } := ⟨_, rfl⟩
  obtain ⟨v, hv⟩ : ∃ v, v = u.countHits e.hits := ⟨_, rfl⟩
  have counts : u.CountsHits e.hits v := hv ▸ State.countHits_counts _ _
  rw [← hu, ← hv] at forwards
  obtain ⟨transit, answers⟩ := State.answerUpstream_of_head (s := v) (counts.transit.trans (by rw [hu])) rfl
  have behind : ∀ hl : 0 < rest.length, ¬decide (rest[0].state = .ready) = true := fun hl => by
    rw [hrest rest[0] (List.getElem_mem hl)]
    nofun
  rw [dropWhile_of_head behind] at transit
  rw [takeWhile_of_head behind, counts.answers, hu] at answers
  obtain ⟨loads, writes⟩ := (State.closed_iff.mp closed).1.waits (t := v.answerUpstream) (counts.running.trans (by rw [hu]; rfl))
    (counts.fdu.trans (by rw [hu]; rfl)) (counts.ppl.trans (by rw [hu]; rfl)) (counts.cdu.trans (by rw [hu]; rfl))
    (counts.rou.trans (by rw [hu]; rfl))
  have runs : exec .fullyMaskedForward s = .next v.answerUpstream.classifyCandidate.placeAll := by
    have owed : State.maskedOwed s.clearOutputs = true := by rw [State.maskedOwed, masked]; rfl
    rw [exec, execFullyMaskedForward, taken_of_owed low he owed, forwards, State.finish_of_no_write loads writes]
  obtain ⟨ack, enable, stop⟩ := counts.shadows
  refine ⟨_, runs, ?_, answers, counts.flight.trans (by rw [hu]; rfl), counts.share.trans (by rw [hu]; rfl),
    counts.hits.trans (by rw [hu]; rfl), fun some => ?_, fun none => ?_, counts.slots.trans (by rw [hu]; rfl),
    counts.fifo.trans (by rw [hu]; rfl), counts.rou.trans (by rw [hu]; rfl), ack.trans (by rw [hu]; rfl), enable.trans (by rw [hu]; rfl),
    stop.trans (by rw [hu]; rfl), counts.lcu.trans (by rw [hu]; rfl), counts.fdu.trans (by rw [hu]; rfl),
    counts.ppl.trans (by rw [hu]; rfl), counts.cdu.trans (by rw [hu]; rfl)⟩
  · rw [State.placeAll_tru_transit, ← transit]
    exact map_req_onFirst _ (fun x => by split <;> rfl) _
  · have := counts.counted some
    rw [hu] at this
    exact this
  · have := counts.uncounted none
    rw [hu] at this
    exact ⟨(congrArg State.sac this :), (congrArg State.csu this :)⟩

end Sys2Proof.Machine
end

section
/-! PROOFS. The hazard hold (O43) and masking (O40). -/

namespace Sys2Proof.Machine

variable {s t : State}

/-! ### The hazard hold -/

theorem State.statusGranted_flight (p : OwnPurpose) (s : State) : (s.statusGranted p).tru.flight = s.tru.flight := by
  unfold State.statusGranted
  split
  · exact State.completeWith_tru_flight _ _ _
  · rfl

/-- A grant puts a transit request in flight only of a candidate that is not held (R134, R135). -/
theorem State.not_held_of_grant {e : TransitEntry} {sent : Request} (he : s.candidate = some e)
    (hf : s.grant.tru.flight = s.tru.flight ++ [.transit sent]) : s.held e = false := by
  have own : ∀ r, (s.grantOwn r).tru.flight ≠ s.tru.flight ++ [.transit sent] := fun r h => by
    rw [State.grantOwn_eq, State.statusGranted_flight] at h
    exact absurd (List.append_cancel_left h) nofun
  refine (Bool.not_eq_true _).mp fun held => ?_
  have unready : s.transitReady = none := by simp only [State.transitReady, he, held, Bool.true_or, if_true]
  rw [State.grant, unready] at hf
  cases hr : s.ownReady with
  | none =>
    rw [hr] at hf
    exact absurd hf (by simp)
  | some r =>
    rw [hr] at hf
    exact own r hf

theorem Tru.mem_outstanding {tru : Tru} {w : OwnRequest} (h : InFlight.own w ∈ tru.flight) (hw : w.kind = .write) :
    (w.addr, w.beats * beatBytes) ∈ tru.outstanding :=
  List.mem_filterMap.mpr ⟨_, h, by simp [hw]⟩

/-- A read that touches no byte of a range shares none with it (R134). -/
theorem TransitEntry.not_touches_of_read {e : TransitEntry} {range : Nat × Nat} (h : e.touches range = false) (hr : e.req.kind = .read)
    {k : Nat} (hk : range.1 ≤ k ∧ k < range.1 + range.2) :
    ¬(e.req.addr.toNat ≤ k ∧ k < e.req.addr.toNat + e.req.length * beatBytes) := by
  simp only [TransitEntry.touches, hr, rangesMeet, Bool.and_eq_false_iff, decide_eq_false_iff_not] at h
  omega

/-- A write that touches no byte of a range enables none of it after masking (R134). -/
theorem TransitEntry.not_touches_of_write {e : TransitEntry} {range : Nat × Nat} (h : e.touches range = false) (hw : e.req.kind = .write)
    {k : Nat} (hk : range.1 ≤ k ∧ k < range.1 + range.2) {x : BeatClass × Nat × Beat} (hx : x ∈ e.maskedBeats) {j : Nat} (hj : j < 32)
    (hen : x.2.2.enables.getLsbD j = true) : x.2.1 + j ≠ k := by
  rintro rfl
  simp only [TransitEntry.touches, hw] at h
  have beat := List.any_eq_false.mp h x hx
  have byte := List.any_eq_false.mp (Bool.eq_false_iff.mpr beat) j (List.mem_range.mpr hj)
  rw [hen, Bool.true_and, rangeHolds] at byte
  exact byte (by rw [decide_eq_true hk.1, decide_eq_true hk.2]; rfl)

/-- Settles O43. -/
theorem hazardHold : Obligations.HazardHold := by
  intro s t e w k hq he hw hkind hlow hhigh hexec ⟨sent, hsent⟩
  obtain ⟨settled, -⟩ := State.quiet_iff.mp hq
  obtain rfl := Host.Outcome.next.inj ((command_next settled).symm.trans hexec)
  rw [State.finish_tru_flight] at hsent
  have free : s.held e = false := State.not_held_of_grant (s := s.clearOutputs) he hsent
  have untouched : e.touches (w.addr, w.beats * beatBytes) = false :=
    Bool.eq_false_iff.mpr (List.any_eq_false.mp free _ (Tru.mem_outstanding hw hkind))
  have byte : w.addr ≤ k ∧ k < w.addr + w.beats * beatBytes := ⟨hlow, by rw [Nat.mul_comm]; exact hhigh⟩
  refine ⟨fun read => ?_, fun write x hx j hj => e.not_touches_of_write untouched write byte hx hj⟩
  rw [Nat.mul_comm]
  exact e.not_touches_of_read untouched read byte

/-! ### Masks -/

theorem getLsbD_slotMask {k : Nat} (h : k < 32) : (0xF0000000 : Word).getLsbD k = decide (28 ≤ k) := by
  have all : ∀ i : Fin 32, (0xF0000000 : Word).getLsbD i = decide (28 ≤ i.val) := by decide
  exact all ⟨k, h⟩

theorem getLsbD_fullMask {k : Nat} (h : k < 32) : (0xFFFFFFFF : Word).getLsbD k = true := by
  rw [show (0xFFFFFFFF : Word) = BitVec.allOnes 32 from rfl, BitVec.getLsbD_allOnes, decide_eq_true h]

theorem not_getLsbD_noMask (k : Nat) : ¬(0 : Word).getLsbD k = true := by
  rw [show (0 : Word).getLsbD k = false from BitVec.getLsbD_zero]
  nofun

theorem getLsbD_maskBeat (c : BeatClass) (b : Beat) {k : Nat} (h : k < 32) :
    (maskBeat c b).enables.getLsbD k = (b.enables.getLsbD k && !c.shielded.getLsbD k) := by
  rw [maskBeat, BitVec.getLsbD_and, BitVec.getLsbD_not, decide_eq_true h, Bool.true_and]

/-- A mask leaves a word as it is iff they share no bit. -/
theorem and_not_eq_self_iff (a m : Word) : a &&& ~~~m = a ↔ a &&& m = 0 := by
  constructor
  · intro h
    rw [← h, BitVec.and_assoc, BitVec.and_comm (~~~m), BitVec.and_not_self]
    exact BitVec.and_zero
  · intro h
    refine BitVec.eq_of_getLsbD_eq fun i hi => ?_
    have bit : (a.getLsbD i && m.getLsbD i) = false := by rw [← BitVec.getLsbD_and, h]; exact BitVec.getLsbD_zero
    rw [BitVec.getLsbD_and, BitVec.getLsbD_not, decide_eq_true hi, Bool.true_and]
    cases ha : a.getLsbD i with
    | false => rfl
    | true => rw [ha, Bool.true_and] at bit; rw [bit]; rfl

/-- A beat is hit iff masking clears an enable of it (R129). -/
theorem beatHit_iff (c : BeatClass) (b : Beat) : beatHit c b = true ↔ (maskBeat c b).enables ≠ b.enables := by
  rw [beatHit, decide_eq_true_iff, maskBeat]
  exact not_congr (and_not_eq_self_iff _ _).symm

/-! ### Classes by address -/

theorem Window.contains_iff (w : Window) (a : Nat) : w.contains a = true ↔ w.base ≤ a ∧ a < w.base + w.size := by
  rw [Window.contains, Bool.and_eq_true, decide_eq_true_iff, decide_eq_true_iff]

theorem Window.contains_eq_false_iff (w : Window) (a : Nat) : w.contains a = false ↔ ¬(w.base ≤ a ∧ a < w.base + w.size) := by
  rw [← w.contains_iff, Bool.not_eq_true]

theorem State.contains_control_iff (s : State) (a : Nat) :
    ({ base := s.tru.controlBase, size := controlSize } : Window).contains a = true ↔ s.controlByte a :=
  Window.contains_iff _ a

theorem State.beatClass_of_control {a : Nat} (h : s.controlByte a) : s.beatClass a = controlClass (a - s.tru.controlBase) :=
  if_pos ((s.contains_control_iff a).mpr h)

theorem State.beatClass_of_image {a : Nat} (h : ¬s.controlByte a) (hi : s.tru.params.image.contains a = true) :
    s.beatClass a = .image :=
  (if_neg fun inside => h ((s.contains_control_iff a).mp inside)).trans (if_pos hi)

/-- The lowest protect window that contains an address (R128). -/
def State.protectAt (s : State) (a : Nat) : Option (Fin 6) := (List.finRange 6).find? fun k => s.tru.params.protect[k].contains a

theorem State.beatClass_of_outside {a : Nat} (h : ¬s.controlByte a) (hi : s.tru.params.image.contains a = false) :
    s.beatClass a = ((s.protectAt a).map BeatClass.protect).getD .plain := by
  refine (if_neg fun inside => h ((s.contains_control_iff a).mp inside)).trans ((if_neg (by rw [hi]; nofun)).trans ?_)
  change _ = (((List.finRange 6).find? fun k => s.tru.params.protect[k].contains a).map BeatClass.protect).getD .plain
  split
  · next found => rw [found]; rfl
  · next none => rw [none]; rfl

theorem controlClass_slot {o : Nat} {n : Fin 8} (h : 0x100 + 32 * n.val ≤ o) (h' : o < 0x120 + 32 * n.val) :
    controlClass o = .commandSlot n := by
  have isn : (o - 0x100) / 32 = n.val := by omega
  rw [controlClass, if_neg (by omega), if_pos (by omega), isn, Fin.ofNat_val_eq_self]

theorem Window.contains_add {w : Window} (hw : w.beatAligned) {a j : Nat} (ha : a % 32 = 0) (hj : j < 32) :
    w.contains (a + j) = w.contains a := by
  obtain ⟨base, size⟩ := hw
  rw [Bool.eq_iff_iff, w.contains_iff, w.contains_iff]
  omega

theorem State.controlByte_add (hc : s.tru.controlBase % 32 = 0) {a j : Nat} (ha : a % 32 = 0) (hj : j < 32) :
    s.controlByte (a + j) ↔ s.controlByte a := by
  unfold State.controlByte
  omega

/-- In the control window a beat's shielded bytes are the part-owned ones (R127). -/
theorem shielded_controlClass_iff {o j : Nat} (ho : o % 32 = 0) (hj : j < 32) :
    (controlClass o).shielded.getLsbD j = true ↔ o + j < 0x100 ∨ (o + j < 0x200 ∧ 28 ≤ (o + j) % 32) := by
  unfold controlClass
  split
  · rw [BeatClass.shielded, getLsbD_fullMask hj]
    exact ⟨fun _ => .inl (by omega), fun _ => rfl⟩
  split
  · rw [BeatClass.shielded, getLsbD_slotMask hj, decide_eq_true_iff]
    omega
  split
  · exact ⟨fun h => absurd h (not_getLsbD_noMask j), fun _ => by omega⟩
  · exact ⟨fun h => absurd h (not_getLsbD_noMask j), fun _ => by omega⟩

/-- With windows at beat addresses, the bytes of a beat that are shielded are the part-owned and the protected ones (R127, R128). -/
theorem State.shielded_iff (hc : s.tru.controlBase % 32 = 0) (hi : s.tru.params.image.beatAligned)
    (hp : ∀ k : Fin 6, s.tru.params.protect[k].beatAligned) {a j : Nat} (ha : a % 32 = 0) (hj : j < 32) :
    (s.beatClass a).shielded.getLsbD j = true ↔ s.partOwned (a + j) ∨ s.protectedByte (a + j) := by
  have control := State.controlByte_add hc ha hj
  by_cases inside : s.controlByte a
  · have low := inside.1
    rw [State.beatClass_of_control inside, shielded_controlClass_iff (by omega) hj, State.partOwned, State.protectedByte, control]
    have same : a - s.tru.controlBase + j = a + j - s.tru.controlBase := by omega
    rw [same]
    exact ⟨fun h => .inl ⟨inside, h⟩, fun h => h.elim And.right fun h => absurd inside h.1⟩
  · have foreign : ¬s.partOwned (a + j) := fun h => inside (control.mp h.1)
    rw [or_iff_right foreign, State.protectedByte, control, Window.contains_add hi ha hj]
    cases image : s.tru.params.image.contains a with
    | true =>
      rw [State.beatClass_of_image inside image]
      exact ⟨fun h => absurd h (not_getLsbD_noMask j), fun h => nomatch h.2.1⟩
    | false =>
      rw [State.beatClass_of_outside inside image]
      cases found : s.protectAt a with
      | none =>
        refine ⟨fun h => absurd h (not_getLsbD_noMask j), fun h => ?_⟩
        obtain ⟨-, -, k, hk⟩ := h
        rw [Window.contains_add (hp k) ha hj] at hk
        exact absurd hk (List.find?_eq_none.mp found k (List.mem_finRange k))
      | some k =>
        refine ⟨fun _ => ⟨inside, rfl, k, ?_⟩, fun _ => getLsbD_fullMask hj⟩
        rw [Window.contains_add (hp k) ha hj]
        exact List.find?_some (p := fun k : Fin 6 => s.tru.params.protect[k].contains a) found

/-! ### What a classified write sends downstream -/

/-- A request classified as it becomes the candidate. -/
def State.classified (s : State) (r : Request) : TransitEntry :=
  { req := r, state := .pending, classes := some (s.classify r), answer := [] }

/-- Beat `i` of a write goes downstream masked by the class of its address (R126, R129). -/
theorem State.classified_wire_beat {r : Request} (hl : r.beats.length = r.length) (i : Nat) :
    (s.classified r).wire.beats[i]? = r.beats[i]?.map fun b => maskBeat (s.beatClass (beatAddr r i)) b := by
  by_cases inside : i < r.length
  · simp [State.classified, TransitEntry.wire, TransitEntry.maskedBeats, State.classify, hl, inside]
  · simp [State.classified, TransitEntry.wire, TransitEntry.maskedBeats, State.classify, hl, inside]

theorem Request.wellFormed_write {r : Request} (h : r.wellFormed = true) (hw : r.kind = .write) :
    r.beats.length = r.length ∧ r.addr.toNat % 32 = 0 := by
  simp only [Request.wellFormed, hw, Bool.and_eq_true, beq_iff_eq] at h
  exact ⟨h.2.1, h.1.1.2⟩

/-- Settles O40. -/
theorem maskingClearsPartOwnedBytes : Obligations.MaskingClearsPartOwnedBytes := by
  refine ⟨fun c b => ⟨rfl, fun k hk => ?_, beatHit_iff c b⟩, fun s a => ?_, fun s r hr hw hc hi hp => ?_⟩
  · rw [getLsbD_maskBeat c b hk]
    cases c with
    | statusBlock => rw [BeatClass.shielded, getLsbD_fullMask hk]; rfl
    | protect p => rw [BeatClass.shielded, getLsbD_fullMask hk]; rfl
    | commandSlot n =>
      rw [BeatClass.shielded, getLsbD_slotMask hk, ← decide_not]
      simp only [Nat.not_le]
    | controlWords => rw [BeatClass.shielded, Bool.eq_false_iff.mpr (not_getLsbD_noMask k)]; rfl
    | controlOther => rw [BeatClass.shielded, Bool.eq_false_iff.mpr (not_getLsbD_noMask k)]; rfl
    | image => rw [BeatClass.shielded, Bool.eq_false_iff.mpr (not_getLsbD_noMask k)]; rfl
    | plain => rw [BeatClass.shielded, Bool.eq_false_iff.mpr (not_getLsbD_noMask k)]; rfl
  · intro offset inside
    refine ⟨fun hc => ⟨fun h => ?_, fun n h h' => ?_, fun h h' => ?_, fun h => ?_⟩, fun hc hi => ?_, fun k hc hi hk hlow => ?_,
      fun hc hi hnone => ?_⟩
    · exact (State.beatClass_of_control hc).trans (if_pos h)
    · exact (State.beatClass_of_control hc).trans (controlClass_slot h h')
    · rw [State.beatClass_of_control hc, controlClass, if_neg (by omega), if_neg (by omega), if_pos h']
    · rw [State.beatClass_of_control hc, controlClass, if_neg (by omega), if_neg (by omega), if_neg (by omega)]
    · exact State.beatClass_of_image hc ((Window.contains_iff _ a).mpr hi)
    · rw [State.beatClass_of_outside hc ((Window.contains_eq_false_iff _ a).mpr hi), State.protectAt,
        find?_finRange ((Window.contains_iff _ a).mpr hk) fun j hj => (Window.contains_eq_false_iff _ a).mpr (hlow j hj)]
      rfl
    · have none : s.protectAt a = none :=
        List.find?_eq_none.mpr fun k _ => by rw [(Window.contains_eq_false_iff _ a).mpr (hnone k)]; nofun
      rw [State.beatClass_of_outside hc ((Window.contains_eq_false_iff _ a).mpr hi), none]
      rfl
  · intro sent
    have beat : ∀ i, sent.beats[i]? = r.beats[i]?.map fun b => maskBeat (s.beatClass (beatAddr r i)) b :=
      State.classified_wire_beat (Request.wellFormed_write hr hw).1
    have aligned : r.addr.toNat % 32 = 0 := (Request.wellFormed_write hr hw).2
    refine ⟨hw, rfl, rfl, rfl, ?_, fun i j b c hb hcb hj => ?_⟩
    · refine List.ext_getElem? fun i => ?_
      rw [List.getElem?_map, beat, List.getElem?_map, Option.map_map]
      rfl
    · rw [beat, hb] at hcb
      obtain rfl := Option.some.inj hcb
      have start : beatAddr r i % 32 = 0 := (Nat.add_mul_mod_self_left _ 32 i).trans aligned
      rw [getLsbD_maskBeat _ _ hj, Bool.and_eq_true, Bool.not_eq_true', ← Bool.not_eq_true,
        State.shielded_iff hc hi hp start hj, not_or]
      rfl

end Sys2Proof.Machine
end

section
/-! PROOFS. What commands of the slots leave unchanged when they begin (O59), and loads and saves (O56). -/

namespace Sys2Proof.Machine

variable {s t u : State}

/-! ### The close of an event in which a command begins -/

theorem State.clearOutputs_placing {n : Fin 8} (h : s.readyFor n) : s.tru.placing = [] :=
  (State.closed_iff.mp (State.quiet_iff.mp h.1).2).2

/-- A command that has begun with no other running, and leaves the channels and the transit queue alone, ends its event by placing own
requests. -/
theorem State.finish_of_ready {n : Fin 8} (h : s.readyFor n) (hl : ∀ r ∈ u.csu.running, r.phase.loadWaits = false) (hrou : u.rou = s.rou)
    (ht : u.tru.transit = s.tru.transit) : u.finish = u.placeAll := by
  have rest := (State.closed_iff.mp (State.quiet_iff.mp h.1).2).1
  exact (State.AtRest.of_no_load rest hl hrou ht).finish

section
variable {n : Fin 8} {row : Command → Bool} {body : Fin 8 → Command → State → State}

/-- A command that begins with no other running, and leaves the channels and the transit queue alone, completes (R159, R160). -/
theorem beginning_completes_of_alone {st : Status} {v : Word} {l : List Running} (h : s.readyFor n)
    (hrow : row (s.slot n).command = true)
    (hbody : body n (s.slot n).command (s.clearOutputs.takeCommand n) = u.complete n st v) (hl : ∀ r ∈ l, r.slot = n)
    (hu : State.SparesCommands { s.clearOutputs.takeCommand n with csu.running := l } u) (hrou : u.rou = s.rou)
    (ht : u.tru.transit = s.tru.transit) :
    beginning row body s = .next (u.complete n st v).placeAll ∧ s.CompletesAs (u.complete n st v).placeAll n st v := by
  have idle : (u.complete n st v).csu.running = [] := by
    rw [State.complete_running, hu.running]
    refine List.filter_eq_nil_iff.mpr fun r hr => ?_
    rw [hl r hr]
    simp
  have ends : (u.complete n st v).finish = (u.complete n st v).placeAll :=
    State.finish_of_ready h (no_load_of_idle idle) ((State.complete_rou u n st v).trans hrou) ((State.complete_tru_transit u n st v).trans ht)
  rw [← ends, command_of_ready h hrow, hbody]
  exact ⟨rfl, State.completesAs_of_alone h hl hu⟩

theorem beginning_completes {st : Status} {v : Word} (h : s.readyFor n) (hrow : row (s.slot n).command = true)
    (hbody : body n (s.slot n).command (s.clearOutputs.takeCommand n) = u.complete n st v)
    (hu : (s.clearOutputs.takeCommand n).SparesCommands u) (hrou : u.rou = s.rou) (ht : u.tru.transit = s.tru.transit) :
    beginning row body s = .next (u.complete n st v).placeAll ∧ s.CompletesAs (u.complete n st v).placeAll n st v :=
  beginning_completes_of_alone (l := s.csu.running) h hrow hbody (by rw [h.2.2]; exact fun _ hr => absurd hr List.not_mem_nil) hu hrou ht

/-- A command that begins with no other running, and leaves the channels and the transit queue alone, runs on (R159). -/
theorem beginning_runs {p : Phase} (h : s.readyFor n) (hrow : row (s.slot n).command = true) (hp : p.loadWaits = false)
    (hbody : body n (s.slot n).command (s.clearOutputs.takeCommand n) = u)
    (hu : ((s.clearOutputs.takeCommand n).runs n p).SparesCommands u) (hrou : u.rou = s.rou) (ht : u.tru.transit = s.tru.transit) :
    beginning row body s = .next u.placeAll ∧ s.RunsIn u.placeAll n p := by
  have fresh : ∀ r ∈ u.csu.running, r.phase.loadWaits = false := fun r hr => by
    rw [hu.running] at hr
    have one : (s.clearOutputs.takeCommand n).csu.running = [] := h.2.2
    rw [State.runs, one, List.nil_append] at hr
    rw [List.mem_singleton.mp hr]
    exact hp
  have ends : u.finish = u.placeAll := State.finish_of_ready h fresh hrou ht
  rw [← ends, command_of_ready h hrow, hbody]
  exact ⟨rfl, State.runsIn h hp hu⟩

end

/-! ### Own requests -/

theorem State.requestStatus_tru (s : State) : s.requestStatus.tru = { s.tru with placing := s.requestStatus.tru.placing } := by
  unfold State.requestStatus
  split <;> rfl

theorem State.raise_tru (c : Cause) (s : State) : (s.raise c).tru = { s.tru with placing := (s.raise c).tru.placing } := by
  unfold State.raise State.setCauses
  split
  · rfl
  · exact State.requestStatus_tru _

theorem State.complete_tru (n : Fin 8) (st : Status) (v : Word) (s : State) :
    (s.complete n st v).tru = { s.tru with placing := (s.complete n st v).tru.placing } :=
  State.raise_tru .cmdDone _

/-- A unit in which requests have been placed differs in its own requests alone (R132). -/
theorem State.onlyOwn_placeAll (hs : s.tru.placing = []) {l : List OwnRequest} (ht : t.tru = { s.tru with placing := l, answers := [] }) :
    s.tru.onlyOwn t.placeAll.tru := by
  rw [Tru.onlyOwn, State.placeAll, ht]
  dsimp only
  rw [← hs]

/-- Placing changes neither the order nor the number of the own requests that stand already (R132). -/
theorem State.placeAll_own_waiting (s : State) :
    s.placeAll.tru.own ++ s.placeAll.tru.waiting = s.tru.own ++ s.tru.waiting ++ rankSorted s.tru.placing := by
  rw [State.placeAll]
  dsimp only
  cases hw : s.tru.waiting with
  | nil => rw [List.nil_append, List.append_nil, List.append_assoc, List.take_append_drop]
  | cons r rest => rw [List.isEmpty_cons, if_neg Bool.false_ne_true, List.take_zero, List.drop_zero, List.append_nil, List.append_assoc]

/-- Requests of one producer take their places as they were placed (R132). -/
theorem rankSorted_of_rank {l : List OwnRequest} {k : Nat} (hk : k < 6) (h : ∀ r ∈ l, r.purpose.rank = k) : rankSorted l = l := by
  have all : (l.filter fun r => r.purpose.rank == k) = l := List.filter_eq_self.mpr fun r hr => beq_iff_eq.mpr (h r hr)
  have none : ∀ j, j ≠ k → (l.filter fun r => r.purpose.rank == j) = [] := fun j hj =>
    List.filter_eq_nil_iff.mpr fun r hr => by rw [h r hr, beq_iff_eq]; exact hj.symm
  have parts : ∀ m, (List.range m).flatMap (fun j => l.filter fun r => r.purpose.rank == j) = if k < m then l else [] := by
    intro m
    induction m with
    | zero => rfl
    | succ m ih =>
      rw [List.range_succ, List.flatMap_append, ih, List.flatMap_singleton]
      by_cases last : m = k
      · subst last
        rw [all, if_neg (Nat.lt_irrefl _), if_pos (Nat.lt_succ_self _), List.nil_append]
      · rw [none m last, List.append_nil]
        exact ite_of_iff (by omega) _ _
  exact (parts 6).trans (if_pos hk)

theorem foldl_place {α : Type} (f : α → OwnRequest) (l : List α) :
    ∀ s : State, l.foldl (fun s i => s.place (f i)) s = { s with tru.placing := s.tru.placing ++ l.map f } := by
  induction l with
  | nil => exact fun s => by rw [List.map_nil, List.append_nil, List.foldl_nil]
  | cons i l ih => exact fun s => by rw [List.foldl_cons, ih, State.place, List.append_assoc]; rfl

theorem State.requestStatus_sparesCommands (s : State) : s.SparesCommands s.requestStatus :=
  ⟨by simp, by simp, by simp, by simp, fun i h => by rw [State.requestStatus_csu]; exact h⟩

theorem State.requestStatus_units (s : State) :
    s.requestStatus.lcu = s.lcu ∧ s.requestStatus.fdu = s.fdu ∧ s.requestStatus.ppl = s.ppl ∧ s.requestStatus.cdu = s.cdu
      ∧ s.requestStatus.sac = s.sac ∧ s.requestStatus.rou = s.rou := by
  simp

theorem State.complete_units (n : Fin 8) (st : Status) (v : Word) (s : State) :
    (s.complete n st v).lcu = s.lcu ∧ (s.complete n st v).fdu = s.fdu ∧ (s.complete n st v).ppl = s.ppl
      ∧ (s.complete n st v).cdu = s.cdu ∧ (s.complete n st v).sac = s.sac ∧ (s.complete n st v).rou = s.rou := by
  simp

/-- Settles O59. -/
theorem refreshAndBadCommand : Obligations.RefreshAndBadCommand := by
  intro s n ready kept
  have placing := State.clearOutputs_placing ready
  refine ⟨fun code => ?_, fun code => ?_⟩
  · obtain ⟨v, hv⟩ : ∃ v, v = (s.clearOutputs.takeCommand n).runs n .refresh := ⟨_, rfl⟩
    obtain ⟨lcu, fdu, ppl, cdu, sac, rou⟩ := v.requestStatus_units
    have tru := v.requestStatus_tru
    have asked := State.requestStatus_placing v
    obtain ⟨runs, phase⟩ := beginning_runs (row := hasCode codeStatusRefresh) (body := beginStatusRefresh) (u := v.requestStatus) (p := .refresh) ready
      (by rw [hasCode, code]; rfl) rfl (by rw [hv]; rfl) (by rw [hv]; exact State.requestStatus_sparesCommands _)
      (rou.trans (by rw [hv]; rfl)) (by rw [tru, hv]; rfl)
    refine ⟨_, runs, ⟨lcu.trans (by rw [hv]; rfl), fdu.trans (by rw [hv]; rfl), ppl.trans (by rw [hv]; rfl), cdu.trans (by rw [hv]; rfl),
      sac.trans (by rw [hv]; rfl), rou.trans (by rw [hv]; rfl), State.onlyOwn_placeAll placing (tru.trans (by rw [hv]; rfl))⟩, phase,
      congrArg Csu.statusWaiting (State.requestStatus_csu v), ?_⟩
    rw [State.placeAll_own_waiting, asked, tru, hv]
    change s.tru.own ++ s.tru.waiting ++ rankSorted (if s.csu.statusWaiting = true then s.tru.placing else s.tru.placing ++ [_]) = _
    rw [placing]
    split
    · rfl
    · rfl
  · have undefined : undefinedCode (s.slot n).command = true := by
      rw [undefinedCode, Bool.not_eq_true', ← Bool.not_eq_true, List.contains_iff_mem]
      exact code
    obtain ⟨v, hv⟩ : ∃ v, v = s.clearOutputs.takeCommand n := ⟨_, rfl⟩
    obtain ⟨lcu, fdu, ppl, cdu, sac, rou⟩ := v.complete_units n .badCommand 0
    obtain ⟨runs, completes⟩ := beginning_completes (body := beginBadCommand) (u := v) (st := .badCommand) (v := 0) ready undefined
      (by rw [hv]; rfl) (hv ▸ .refl _) (by rw [hv]; rfl) (by rw [hv]; rfl)
    refine ⟨(v.complete n .badCommand 0).placeAll, runs, ⟨lcu.trans (by rw [hv]; rfl), fdu.trans (by rw [hv]; rfl),
      ppl.trans (by rw [hv]; rfl), cdu.trans (by rw [hv]; rfl), sac.trans (by rw [hv]; rfl), rou.trans (by rw [hv]; rfl),
      State.onlyOwn_placeAll placing ((State.complete_tru n .badCommand 0 v).trans (by rw [hv]; rfl))⟩, completes, ?_⟩
    exact (State.complete_csu_inspection v n .badCommand 0).trans (by rw [hv]; rfl)

/-! ### Loads and saves -/

theorem badAddress_iff (addr size : Nat) : badAddress addr size = true ↔ addr % 32 ≠ 0 ∨ 2 ^ 40 < addr + size := by
  rw [badAddress, Bool.or_eq_true, decide_eq_true_iff, decide_eq_true_iff]
  rfl

/-- The own requests of a structure of whole reads (R37, R169). -/
theorem State.placeReads_eq (p : OwnPurpose) (addr m : Nat) (s : State) :
    s.placeReads p addr (16 * m) = { s with
      tru.placing := s.tru.placing ++ (List.range m).map fun i =>
        { purpose := p, kind := .read, addr := addr + 512 * i, beats := 16, data := [] } } := by
  have reads : (16 * m + (readBeats - 1)) / readBeats = m := by rw [readBeats]; omega
  rw [State.placeReads, reads, foldl_place fun i => commandRead p (addr + readBeats * beatBytes * i) (min readBeats (16 * m - readBeats * i))]
  refine congrArg (fun l => { s with tru.placing := s.tru.placing ++ l }) (List.map_congr_left fun i hi => ?_)
  have whole : min readBeats (16 * m - readBeats * i) = 16 := by
    have := List.mem_range.mp hi
    rw [readBeats]
    omega
  rw [whole]
  rfl

theorem State.takeSnapshot_eq (addr : Nat) (s : State) :
    s.takeSnapshot addr = { s with
      tru.placing := s.tru.placing ++ (List.range 32).map fun i =>
        { purpose := .snapshot, kind := .write, addr := addr + 512 * i, beats := 16
          data := ((referenceBytes s.fdu.reference).drop (512 * i)).take 512 } } :=
  foldl_place _ _ s

/-- Requests of one producer go behind those that stand already (R132). -/
theorem State.placed_of_rank (hs : s.tru.placing = []) {l : List OwnRequest} {k : Nat} (hk : k < 6) (hl : ∀ r ∈ l, r.purpose.rank = k)
    (ht : t.tru = { s.tru with placing := s.tru.placing ++ l, answers := [] }) :
    t.placeAll.tru.own ++ t.placeAll.tru.waiting = s.tru.own ++ s.tru.waiting ++ l := by
  rw [State.placeAll_own_waiting, ht]
  dsimp only
  rw [hs, List.nil_append, rankSorted_of_rank hk hl]

section
variable {n : Fin 8} {row : Command → Bool} {body : Fin 8 → Command → State → State}

/-- A command refused at its beginning changes no block (R160). -/
theorem beginning_refuses {st : Status} {v : Word} (h : s.readyFor n) (hrow : row (s.slot n).command = true)
    (hbody : body n (s.slot n).command (s.clearOutputs.takeCommand n) = (s.clearOutputs.takeCommand n).complete n st v) :
    ∃ t, beginning row body s = .next t ∧ s.CompletesAs t n st v ∧ t.lcu = { s.lcu with ltrig := false } ∧ t.fdu = s.fdu
      ∧ t.ppl = s.ppl ∧ t.cdu = s.cdu ∧ t.sac = s.sac ∧ t.rou = s.rou ∧ t.csu.inspection = s.csu.inspection := by
  obtain ⟨runs, completes⟩ := beginning_completes h hrow hbody (.refl _) rfl rfl
  obtain ⟨w, hw⟩ : ∃ w, w = s.clearOutputs.takeCommand n := ⟨_, rfl⟩
  obtain ⟨lcu, fdu, ppl, cdu, sac, rou⟩ := w.complete_units n st v
  rw [← hw] at runs completes
  exact ⟨_, runs, completes, lcu.trans (by rw [hw]; rfl), fdu.trans (by rw [hw]; rfl), ppl.trans (by rw [hw]; rfl),
    cdu.trans (by rw [hw]; rfl), sac.trans (by rw [hw]; rfl), rou.trans (by rw [hw]; rfl),
    (State.complete_csu_inspection w n st v).trans (by rw [hw]; rfl)⟩

/-- A command that runs on when it has placed own requests of one producer (R132, R159). -/
theorem beginning_places {p : Phase} {f : Fdu} {l : List OwnRequest} {k : Nat} (h : s.readyFor n) (hrow : row (s.slot n).command = true)
    (hp : p.loadWaits = false)
    (hbody : body n (s.slot n).command (s.clearOutputs.takeCommand n) =
      { (s.clearOutputs.takeCommand n).runs n p with fdu := f, tru.placing := s.tru.placing ++ l })
    (hk : k < 6) (hl : ∀ r ∈ l, r.purpose.rank = k) :
    ∃ t, beginning row body s = .next t ∧ s.RunsIn t n p ∧ t.lcu = { s.lcu with ltrig := false } ∧ t.fdu = f ∧ t.ppl = s.ppl
      ∧ t.cdu = s.cdu ∧ t.sac = s.sac ∧ t.rou = s.rou
      ∧ t.tru.own ++ t.tru.waiting = s.tru.own ++ s.tru.waiting ++ l := by
  obtain ⟨runs, phase⟩ := beginning_runs h hrow hp hbody ⟨rfl, rfl, rfl, rfl, fun _ => id⟩ rfl rfl
  exact ⟨_, runs, phase, rfl, rfl, rfl, rfl, rfl, rfl, State.placed_of_rank (State.clearOutputs_placing h) hk hl rfl⟩

end

/-- SAVE_REFERENCE with no line in analysis takes its snapshot at once (R39). -/
theorem beginSaveReference_of_idle {n : Fin 8} {c : Command} (hb : ¬badAddress (addressOf c.arg1 c.arg2) referenceSize = true)
    (h : s.fdu.analysis = none) : beginSaveReference n c s = (s.runs n (.saving 0)).takeSnapshot (addressOf c.arg1 c.arg2) := by
  refine (if_neg hb).trans ?_
  dsimp only
  rw [show (s.runs n (.saving 0)).fdu.analysis = none from h]

/-- SAVE_REFERENCE with a line in analysis leaves its snapshot pending (R39). -/
theorem beginSaveReference_of_analysis {n : Fin 8} {c : Command} (hb : ¬badAddress (addressOf c.arg1 c.arg2) referenceSize = true)
    (h : s.fdu.analysis ≠ none) :
    beginSaveReference n c s = { s.runs n (.saving 0) with fdu.snapshot := some (addressOf c.arg1 c.arg2) } := by
  obtain ⟨m, hm⟩ := Option.ne_none_iff_exists'.mp h
  refine (if_neg hb).trans ?_
  dsimp only
  rw [show (s.runs n (.saving 0)).fdu.analysis = some m from hm]

/-- Settles O56. -/
theorem loadsAndSaves : Obligations.LoadsAndSaves := by
  intro s n ready k addr bad kept placed
  refine ⟨fun code => ?_, fun code => ?_, fun code => ?_⟩
  · have hrow : hasCode codeLoadTables k = true := by rw [hasCode, code]; rfl
    by_cases hbad : bad 160
    · obtain ⟨t, runs, completes, lcu, fdu, ppl, cdu, sac, rou, -⟩ := beginning_refuses (body := beginLoadTables) (st := .badArg) (v := 0)
        ready hrow (if_pos ((badAddress_iff _ _).mpr hbad))
      exact ⟨t, runs, ⟨lcu, ppl, cdu, sac, rou⟩, fdu, fun _ => completes, fun h => absurd hbad h⟩
    · obtain ⟨t, runs, phase, lcu, fdu, ppl, cdu, sac, rou, own⟩ := beginning_places (body := beginLoadTables) (p := .dirHeader addr)
        (f := s.fdu) (k := 0) ready hrow rfl (if_neg (mt (badAddress_iff _ _).mp hbad)) (by decide)
        (l := [commandRead .tableRead addr 1]) (by simp [OwnPurpose.rank, commandRead])
      exact ⟨t, runs, ⟨lcu, ppl, cdu, sac, rou⟩, fdu, fun h => absurd h hbad, fun _ => ⟨phase, own⟩⟩
  · have hrow : hasCode codeLoadReference k = true := by rw [hasCode, code]; rfl
    by_cases hbad : bad 16384
    · obtain ⟨t, runs, completes, lcu, fdu, ppl, cdu, sac, rou, -⟩ := beginning_refuses (body := beginLoadReference) (st := .badArg) (v := 0)
        ready hrow (if_pos ((badAddress_iff _ _).mpr hbad))
      exact ⟨t, runs, ⟨lcu, ppl, cdu, sac, rou⟩, fdu, fun _ => completes, fun h => absurd hbad h⟩
    · obtain ⟨t, runs, phase, lcu, fdu, ppl, cdu, sac, rou, own⟩ := beginning_places (body := beginLoadReference) (p := .referenceRead [])
        (f := s.fdu) (k := 0) ready hrow rfl
        ((if_neg (mt (badAddress_iff _ _).mp hbad)).trans (State.placeReads_eq .referenceRead addr 32 _)) (by decide)
        (by simp [OwnPurpose.rank])
      exact ⟨t, runs, ⟨lcu, ppl, cdu, sac, rou⟩, fdu, fun h => absurd h hbad, fun _ => ⟨phase, own⟩⟩
  · have hrow : hasCode codeSaveReference k = true := by rw [hasCode, code]; rfl
    by_cases hbad : bad 16384
    · obtain ⟨t, runs, completes, lcu, fdu, ppl, cdu, sac, rou, -⟩ := beginning_refuses (body := beginSaveReference) (st := .badArg) (v := 0)
        ready hrow (if_pos ((badAddress_iff _ _).mpr hbad))
      exact ⟨t, runs, ⟨lcu, ppl, cdu, sac, rou⟩, fun _ => ⟨completes, fdu⟩, fun h => absurd hbad h⟩
    · have good := mt (badAddress_iff addr 16384).mp hbad
      by_cases idle : s.fdu.analysis = none
      · obtain ⟨t, runs, phase, lcu, fdu, ppl, cdu, sac, rou, own⟩ := beginning_places (body := beginSaveReference) (p := .saving 0)
          (f := s.fdu) (k := 2) ready hrow rfl
          ((beginSaveReference_of_idle (s := s.clearOutputs.takeCommand n) good idle).trans (State.takeSnapshot_eq addr _)) (by decide)
          (by simp [OwnPurpose.rank])
        exact ⟨t, runs, ⟨lcu, ppl, cdu, sac, rou⟩, fun h => absurd h hbad, fun _ => ⟨phase, fun h => absurd idle h, fun _ => ⟨fdu, own⟩⟩⟩
      · obtain ⟨t, runs, phase, lcu, fdu, ppl, cdu, sac, rou, own⟩ := beginning_places (body := beginSaveReference) (p := .saving 0)
          (f := { s.fdu with snapshot := some addr }) (l := []) (k := 2) ready hrow rfl
          ((beginSaveReference_of_analysis (s := s.clearOutputs.takeCommand n) good idle).trans (by rw [List.append_nil]; rfl)) (by decide)
          (by simp)
        exact ⟨t, runs, ⟨lcu, ppl, cdu, sac, rou⟩, fun h => absurd h hbad, fun _ => ⟨phase, fun _ => ⟨own, fdu⟩, fun h => absurd h idle⟩⟩

end Sys2Proof.Machine
end

section
/-! PROOFS. START, STOP and RELEARN (O55), and BRIDGE_ENABLE (O58). -/

namespace Sys2Proof.Machine

variable {s t u : State}

/-! ### What detection changes -/

/-- From `s` to `t` detection has acted: blobs and flaws have changed, ranges may have been lost, and nothing else (R17, R58, R59). -/
structure State.Detects (s t : State) : Prop where
  lcu : t.lcu = { s.lcu with gaps := t.lcu.gaps }
  fdu : t.fdu = { s.fdu with blobs := t.fdu.blobs, lastBlobId := t.fdu.lastBlobId, store := t.fdu.store }
  ppl : t.ppl = s.ppl
  cdu : t.cdu = s.cdu
  rou : t.rou = s.rou
  tru : t.tru = { s.tru with placing := t.tru.placing }
  sac : t.sac = { s.sac with counters := t.sac.counters }
  lines : t.sac.counters.lines = s.sac.counters.lines
  csu : t.csu = { s.csu with causes := t.csu.causes, statusWaiting := t.csu.statusWaiting }
  causes : ∀ i, s.csu.causes.getLsbD i = true → t.csu.causes.getLsbD i = true

theorem State.Detects.refl (s : State) : s.Detects s := ⟨rfl, rfl, rfl, rfl, rfl, rfl, rfl, rfl, rfl, fun _ => id⟩

theorem State.Detects.trans (h : s.Detects t) (h' : t.Detects u) : s.Detects u where
  lcu := by rw [h'.lcu, h.lcu]
  fdu := by rw [h'.fdu, h.fdu]
  ppl := h'.ppl.trans h.ppl
  cdu := h'.cdu.trans h.cdu
  rou := h'.rou.trans h.rou
  tru := by rw [h'.tru, h.tru]
  sac := by rw [h'.sac, h.sac]
  lines := h'.lines.trans h.lines
  csu := by rw [h'.csu, h.csu]
  causes i hi := h'.causes i (h.causes i hi)

theorem State.addLoss_detects (c : LossCause) (g : Gap) (s : State) : s.Detects (s.addLoss c g) := by
  unfold State.addLoss
  split
  · exact .refl s
  · exact
      { lcu := by rw [State.addGap, State.raise_lcu]; rfl
        fdu := by rw [State.addGap, State.raise_fdu]; rfl
        ppl := State.raise_ppl _ _
        cdu := State.raise_cdu _ _
        rou := State.raise_rou _ _
        tru := State.raise_tru .lineLoss _
        sac := by rw [State.addGap, State.raise_sac]; rfl
        lines := by rw [State.addGap, State.raise_sac]; rfl
        csu := State.raise_csu .lineLoss _
        causes := fun i hi => State.raise_keepsCauses hi }

theorem State.closeBlob_detects (s : State) (x : Blob × Bool) : s.Detects (s.closeBlob x) := by
  unfold State.closeBlob State.offerFlaw
  split
  · exact .refl s
  · split
    · exact ⟨rfl, rfl, rfl, rfl, rfl, rfl, rfl, rfl, rfl, fun _ => id⟩
    · exact State.addLoss_detects _ _ s

theorem State.foldl_closeBlob_detects (l : List (Blob × Bool)) (s : State) : s.Detects (l.foldl State.closeBlob s) :=
  foldl_related State.Detects.refl State.Detects.trans l s fun s x _ => State.closeBlob_detects s x

theorem State.Detects.sparesCommands (h : s.Detects t) : s.SparesCommands t :=
  ⟨by rw [h.csu], by rw [h.csu], by rw [h.csu], by rw [h.tru], h.causes⟩

/-! ### STOP in the LCU -/

theorem foldl_addGap {α : Type} (f : α → Gap) (l : List α) :
    ∀ s : State, l.foldl (fun u x => u.addGap (f x)) s = { s with lcu.gaps := (l.map f).foldl gapAdd s.lcu.gaps } := by
  induction l with
  | nil => exact fun _ => rfl
  | cons x l ih => exact fun s => by rw [List.foldl_cons, ih]; rfl

/-- STOP sends the stamps and the line in assembly to the gap list (R14). -/
theorem State.stopCapture_eq (s : State) : ∃ gaps, s.stopCapture =
    { s with lcu := { s.lcu with gaps := gaps, fifo := [], assembly := none, resumeArmed := false } } := by
  unfold State.stopCapture
  dsimp only
  rw [foldl_addGap fun p => stampRange p s.fdu.detect.ldiv]
  dsimp only
  rw [foldl_addGap fun a : Assembly => stampRange a.stamp s.fdu.detect.ldiv]
  exact ⟨_, rfl⟩

/-! ### The end of STOPPING -/

/-- The open blobs at the end of STOPPING, in ascending id (R51). -/
def State.blobsClosed (s : State) : State := (sortById (s.fdu.blobs.map fun b => (b, false))).foldl State.closeBlob { s with fdu.blobs := [] }

theorem State.stoppingEnd_eq (s : State) : s.stoppingEnd = ({ s.blobsClosed with csu.inspection := .off }.takeFduTables).completeWith isStopping 0 :=
  rfl

theorem State.blobsClosed_detects (s : State) : s.Detects s.blobsClosed := by
  have emptied : s.Detects { s with fdu.blobs := [] } := ⟨rfl, rfl, rfl, rfl, rfl, rfl, rfl, rfl, rfl, fun _ => id⟩
  exact emptied.trans (State.foldl_closeBlob_detects _ _)

theorem State.blobsClosed_blobs (s : State) : s.blobsClosed.fdu.blobs = [] := State.foldl_closeBlob_blobs _ _

/-- The tables of the LCU and the FDU change the tables and the divider alone (R5, R20, R36). -/
theorem State.takeFduTables_eq (s : State) : ∃ d f, s.takeFduTables = { s with lcu := { s.lcu with divider := d }, fdu := f }
    ∧ f.blobs = s.fdu.blobs ∧ f.store = s.fdu.store := by
  unfold State.takeFduTables State.takeDetect
  split
  · exact ⟨s.lcu.divider, _, rfl, rfl, rfl⟩
  · exact ⟨_, _, rfl, rfl, rfl⟩

theorem State.completeWith_of_running {f : Phase → Bool} {n : Fin 8} (h : s.runningWith f = some n) (v : Word) :
    s.completeWith f v = s.complete n .ok v := by
  rw [State.completeWith, h]

/-- STOP with no line queued ends at once (R36, R51, R162): the state in which it completes. -/
def State.stopped (s : State) : State := { s.blobsClosed with csu.inspection := .off }.takeFduTables

theorem State.stopped_units (s : State) :
    s.SparesCommands s.stopped ∧ s.stopped.rou = s.rou ∧ s.stopped.tru.transit = s.tru.transit
      ∧ s.stopped.csu.running = s.csu.running ∧ s.stopped.csu.inspection = .off ∧ s.stopped.fdu.blobs = []
      ∧ s.stopped.lcu.fifo = s.lcu.fifo ∧ s.stopped.lcu.assembly = s.lcu.assembly ∧ s.stopped.lcu.lineQueue = s.lcu.lineQueue
      ∧ s.stopped.lcu.counter = s.lcu.counter := by
  have closed := s.blobsClosed_detects
  obtain ⟨d, f, takes, blobs, -⟩ := State.takeFduTables_eq { s.blobsClosed with csu.inspection := .off }
  have spares : s.SparesCommands s.stopped := closed.sparesCommands.trans (by
    rw [State.stopped, takes]
    exact ⟨rfl, rfl, rfl, rfl, fun _ => id⟩)
  refine ⟨spares, ?_, ?_, spares.running, ?_, ?_, ?_, ?_, ?_, ?_⟩
  all_goals rw [State.stopped, takes]
  · exact closed.rou
  · exact (congrArg Tru.transit closed.tru :)
  · exact blobs.trans s.blobsClosed_blobs
  · exact (congrArg Lcu.fifo closed.lcu :)
  · exact (congrArg Lcu.assembly closed.lcu :)
  · exact (congrArg Lcu.lineQueue closed.lcu :)
  · exact (congrArg Lcu.counter closed.lcu :)

/-- A command that takes inspection to LEARN (R31, R162). -/
theorem beginning_learns {n : Fin 8} {row : Command → Bool} {body : Fin 8 → Command → State → State} {g : Lcu} (h : s.readyFor n)
    (hrow : row (s.slot n).command = true)
    (hbody : body n (s.slot n).command (s.clearOutputs.takeCommand n) =
      ({ s.clearOutputs.takeCommand n with lcu := g }.startLearning).complete n .ok 0) :
    ∃ t, beginning row body s = .next t ∧ s.CompletesAs t n .ok 0 ∧ t.csu.inspection = .learn
      ∧ t.fdu = { s.fdu with mode := .learn, learnCount := s.fdu.detect.learnLines } ∧ t.lcu = g
      ∧ t.ppl = s.ppl ∧ t.cdu = s.cdu ∧ t.sac = s.sac ∧ t.rou = s.rou := by
  obtain ⟨v, hv⟩ : ∃ v, v = { s.clearOutputs.takeCommand n with lcu := g }.startLearning := ⟨_, rfl⟩
  obtain ⟨lcu, fdu, ppl, cdu, sac, rou⟩ := v.complete_units n .ok 0
  obtain ⟨runs, completes⟩ := beginning_completes (u := v) h hrow (hbody.trans (by rw [hv]))
    (by rw [hv]; exact ⟨rfl, rfl, rfl, rfl, fun _ => id⟩) (by rw [hv]; rfl) (by rw [hv]; rfl)
  exact ⟨_, runs, completes, (State.complete_csu_inspection v n .ok 0).trans (by rw [hv]; rfl), fdu.trans (by rw [hv]; rfl),
    lcu.trans (by rw [hv]; rfl), ppl.trans (by rw [hv]; rfl), cdu.trans (by rw [hv]; rfl), sac.trans (by rw [hv]; rfl),
    rou.trans (by rw [hv]; rfl)⟩

/-- STOP takes inspection to STOPPING and empties the capture (R14, R162). -/
theorem beginStop_of_inspecting {n : Fin 8} {c : Command} (h : s.csu.inspection = .learn ∨ s.csu.inspection = .run) :
    ∃ g : Lcu, (g.fifo = [] ∧ g.assembly = none ∧ g.lineQueue = s.lcu.lineQueue ∧ g.counter = s.lcu.counter)
      ∧ beginStop n c s = ({ s with csu.inspection := .stopping, lcu := g }.runs n .stopping).endStoppingIfDrained := by
  obtain ⟨gaps, stops⟩ := State.stopCapture_eq { s with csu.inspection := .stopping }
  refine ⟨{ s.lcu with gaps := gaps, fifo := [], assembly := none, resumeArmed := false }, ⟨rfl, rfl, rfl, rfl⟩, ?_⟩
  rw [beginStop, if_pos (s.inspecting_iff.mpr h), stops]

/-- Settles O55. -/
theorem startStopRelearn : Obligations.StartStopRelearn := by
  intro s n ready kept refused learns
  refine ⟨fun code => ?_, fun code => ?_, fun code => ?_⟩
  · have hrow : hasCode codeStart (s.slot n).command = true := by rw [hasCode, code]; rfl
    by_cases off : s.csu.inspection = .off
    · obtain ⟨t, runs, completes, inspection, fdu, lcu, ppl, cdu, sac, rou⟩ := beginning_learns (body := beginStart) ready hrow (if_pos off)
      exact ⟨t, runs, ⟨ppl, cdu, sac, rou⟩, fun h => absurd off h, fun _ => ⟨⟨completes, inspection, fdu⟩, lcu⟩⟩
    · obtain ⟨t, runs, completes, lcu, fdu, ppl, cdu, sac, rou, inspection⟩ := beginning_refuses (body := beginStart) (st := .badState)
        (v := 0) ready hrow (if_neg off)
      exact ⟨t, runs, ⟨ppl, cdu, sac, rou⟩, fun _ => ⟨completes, lcu, fdu, inspection⟩, fun h => absurd h off⟩
  · have hrow : hasCode codeRelearn (s.slot n).command = true := by rw [hasCode, code]; rfl
    by_cases run : s.csu.inspection = .run
    · obtain ⟨t, runs, completes, inspection, fdu, lcu, ppl, cdu, sac, rou⟩ := beginning_learns (body := beginRelearn) ready hrow (if_pos run)
      exact ⟨t, runs, ⟨ppl, cdu, sac, rou⟩, fun h => absurd run h, fun _ => ⟨⟨completes, inspection, fdu⟩, lcu⟩⟩
    · obtain ⟨t, runs, completes, lcu, fdu, ppl, cdu, sac, rou, inspection⟩ := beginning_refuses (body := beginRelearn) (st := .badState)
        (v := 0) ready hrow (if_neg run)
      exact ⟨t, runs, ⟨ppl, cdu, sac, rou⟩, fun _ => ⟨completes, lcu, fdu, inspection⟩, fun h => absurd h run⟩
  · have hrow : hasCode codeStop (s.slot n).command = true := by rw [hasCode, code]; rfl
    by_cases inspects : s.csu.inspection = .learn ∨ s.csu.inspection = .run
    · have active : ¬(s.csu.inspection = .off ∨ s.csu.inspection = .stopping) := by
        rcases inspects with h | h
        · rw [h]; nofun
        · rw [h]; nofun
      obtain ⟨g, ⟨fifo, assembly, queue, counter⟩, body⟩ := beginStop_of_inspecting (s := s.clearOutputs.takeCommand n) (n := n)
        (c := (s.slot n).command) inspects
      obtain ⟨v, hv⟩ : ∃ v, v = { s.clearOutputs.takeCommand n with csu.inspection := .stopping, lcu := g }.runs n .stopping := ⟨_, rfl⟩
      rw [← hv] at body
      by_cases drained : s.lcu.lineQueue = []
      · obtain ⟨spares, rou, transit, running, inspection, blobs, ufifo, uassembly, uqueue, ucounter⟩ := v.stopped_units
        have found : v.stopped.runningWith isStopping = some n := by
          rw [State.runningWith, running, hv]
          change ((s.csu.running ++ [_]).find? _).map _ = some n
          rw [ready.2.2]
          rfl
        have ends : v.endStoppingIfDrained = v.stopped.complete n .ok 0 := by
          refine (if_pos ⟨by rw [hv]; rfl, ?_⟩).trans (State.completeWith_of_running found 0)
          rw [hv]
          exact List.isEmpty_iff.mpr (queue.trans drained)
        have alone : ∀ r ∈ s.csu.running ++ [{ slot := n, phase := .stopping }], r.slot = n := fun r hr => by
          rw [ready.2.2] at hr
          rw [List.mem_singleton.mp hr]
        obtain ⟨lcu, fdu, -, -, -, -⟩ := v.stopped.complete_units n .ok 0
        obtain ⟨runs, completes⟩ := beginning_completes_of_alone (row := hasCode codeStop) (u := v.stopped) ready hrow (body.trans ends) alone
          (State.SparesCommands.trans (t := v) (by rw [hv]; exact ⟨rfl, rfl, rfl, rfl, fun _ => id⟩) spares) (rou.trans (by rw [hv]; rfl))
          (transit.trans (by rw [hv]; rfl))
        refine ⟨_, runs, fun h => absurd h active, fun _ => ?_⟩
        rw [State.placeAll_lcu, State.placeAll_fdu, lcu, fdu, ufifo, uassembly, uqueue, ucounter, blobs, hv]
        exact ⟨fifo, assembly, queue, counter, fun h => absurd drained h,
          fun _ => ⟨hv ▸ completes, (State.complete_csu_inspection _ n .ok 0).trans (hv ▸ inspection), rfl⟩⟩
      · have waits : v.endStoppingIfDrained = v := if_neg fun h => drained (by
          rw [← List.isEmpty_iff, ← h.2, hv]
          exact congrArg _ queue.symm)
        obtain ⟨runs, phase⟩ := beginning_runs (row := hasCode codeStop) (body := beginStop) (u := v) (p := .stopping) ready hrow rfl
          (body.trans waits) (by rw [hv]; exact ⟨rfl, rfl, rfl, rfl, fun _ => id⟩) (by rw [hv]; rfl) (by rw [hv]; rfl)
        refine ⟨_, runs, fun h => absurd h active, fun _ => ?_⟩
        rw [hv] at phase ⊢
        exact ⟨fifo, assembly, queue, counter, fun _ => ⟨phase, rfl, rfl, rfl, rfl, rfl, rfl⟩, fun h => absurd h drained⟩
    · have refuses : ¬(s.clearOutputs.takeCommand n).inspecting = true := mt (State.inspecting_iff _).mp inspects
      obtain ⟨t, runs, completes, lcu, fdu, ppl, cdu, sac, rou, inspection⟩ := beginning_refuses (body := beginStop) (st := .badState)
        (v := 0) ready hrow (if_neg refuses)
      exact ⟨t, runs, fun _ => ⟨⟨completes, lcu, fdu, inspection⟩, ⟨ppl, cdu, sac, rou⟩⟩, fun h => absurd h inspects⟩

/-! ### BRIDGE_ENABLE -/

theorem State.requestStatus_with_cdu (d : Cdu) (s : State) :
    { s.requestStatus with cdu := d } = State.requestStatus { s with cdu := d } := by
  by_cases h : s.csu.statusWaiting = true
  · have waits : s.requestStatus = s := if_pos h
    have waits' : State.requestStatus { s with cdu := d } = { s with cdu := d } := if_pos h
    rw [waits, waits']
  · have asks : s.requestStatus = { s with csu.statusWaiting := true }.place (statusRequest s.tru.controlBase) := if_neg h
    have asks' : State.requestStatus { s with cdu := d } =
      State.place (statusRequest s.tru.controlBase) { s with cdu := d, csu.statusWaiting := true } := if_neg h
    rw [asks, asks']
    rfl

theorem State.setCauses_with_cdu (w : Word) (d : Cdu) (s : State) :
    { s.setCauses w with cdu := d } = State.setCauses w { s with cdu := d } := by
  by_cases h : w = s.csu.causes
  · have same : s.setCauses w = s := if_pos h
    have same' : State.setCauses w { s with cdu := d } = { s with cdu := d } := if_pos h
    rw [same, same']
  · have asks : s.setCauses w = { s with csu.causes := w }.requestStatus := if_neg h
    have asks' : State.setCauses w { s with cdu := d } = State.requestStatus { s with cdu := d, csu.causes := w } := if_neg h
    rw [asks, asks']
    exact State.requestStatus_with_cdu d { s with csu.causes := w }

/-- A completion does not see the cutter dispatch unit. -/
theorem State.complete_with_cdu (n : Fin 8) (st : Status) (v : Word) (d : Cdu) (s : State) :
    { s.complete n st v with cdu := d } = State.complete n st v { s with cdu := d } :=
  State.setCauses_with_cdu _ d _

/-- A waiting mask is taken, and the BRIDGE_ENABLE that waits with it completes (R107, R122). -/
theorem State.takeLink_of_mask {m : BitVec 4} {n : Fin 8} (hs : s.cdu.stagedLink = none) (hm : s.cdu.newMask = some m)
    (hn : s.runningWith isBridgeMask = some n) :
    s.takeLink = ({ s with cdu.newMask := none }.setMask m).complete n .ok 0 := by
  unfold State.takeLink
  rw [hs]
  dsimp only
  rw [hm]
  exact State.completeWith_of_running (s := { s with cdu.newMask := none }.setMask m) hn 0

/-- BRIDGE_ENABLE between transfers: the mask acts at once and the command completes (R107, R112). -/
theorem beginBridgeEnable_between {n : Fin 8} {c : Command} (hb : s.cdu.engine.between = true) (hs : s.cdu.stagedLink = none)
    (hidle : s.csu.running = []) :
    ∃ engine loopPos gapRunning, beginBridgeEnable n c s = State.complete n .ok 0
      { (s.runs n .bridgeMask).setMask (c.arg1.setWidth 4) with
        cdu.newMask := none, cdu.engine := engine, cdu.loopPos := loopPos, cdu.gapRunning := gapRunning } := by
  obtain ⟨v, hv⟩ : ∃ v, v = { s with cdu.newMask := some (c.arg1.setWidth 4) }.runs n .bridgeMask := ⟨_, rfl⟩
  have running : v.runningWith isBridgeMask = some n := by
    rw [State.runningWith, hv]
    change ((s.csu.running ++ [_]).find? _).map _ = some n
    rw [hidle]
    rfl
  have takes : v.takeLink = ({ v with cdu.newMask := none }.setMask (c.arg1.setWidth 4)).complete n .ok 0 :=
    State.takeLink_of_mask (by rw [hv]; exact hs) (by rw [hv]; rfl) running
  obtain ⟨engine, loopPos, gapRunning, review⟩ := State.reviewEngine_eq v.takeLink
  have begins : beginBridgeEnable n c s = v.takeLink.reviewEngine := by
    rw [beginBridgeEnable, ← hv]
    exact if_pos (by rw [hv]; exact hb)
  refine ⟨engine, loopPos, gapRunning, ?_⟩
  rw [begins, review, takes, State.complete_with_cdu, State.complete_cdu, hv]
  rfl

/-- Settles O58. -/
theorem bridgeEnable : Obligations.BridgeEnable := by
  intro s n ready code staged mask
  have hrow : hasCode codeBridgeEnable (s.slot n).command = true := by rw [hasCode, code]; rfl
  by_cases between : s.cdu.engine.between = true
  · obtain ⟨engine, loopPos, gapRunning, body⟩ := beginBridgeEnable_between (s := s.clearOutputs.takeCommand n) (n := n)
      (c := (s.slot n).command) between staged ready.2.2
    obtain ⟨v, hv⟩ : ∃ v, v = { ((s.clearOutputs.takeCommand n).runs n .bridgeMask).setMask mask with
        cdu.newMask := none, cdu.engine := engine, cdu.loopPos := loopPos, cdu.gapRunning := gapRunning } := ⟨_, rfl⟩
    have alone : ∀ r ∈ s.csu.running ++ [{ slot := n, phase := .bridgeMask }], r.slot = n := fun r hr => by
      rw [ready.2.2] at hr
      rw [List.mem_singleton.mp hr]
    obtain ⟨lcu, fdu, ppl, cdu, sac, rou⟩ := v.complete_units n .ok 0
    obtain ⟨runs, completes⟩ := beginning_completes_of_alone (row := hasCode codeBridgeEnable) (u := v) ready hrow
      (body.trans (by rw [hv])) alone (by rw [hv]; exact ⟨rfl, rfl, rfl, rfl, fun _ => id⟩) (by rw [hv]; rfl) (by rw [hv]; rfl)
    have masked : ∀ b, v.bridge b = (s.bridge b).remask (mask.getLsbD b.val) := fun b => by
      rw [hv]
      exact Vector.getElem_ofFn _
    refine ⟨(v.complete n .ok 0).placeAll, runs, fun _ => ⟨completes, ?_, ?_, ?_, fun b => ?_⟩, fun b sent piece tag lane h => ?_,
      lcu.trans (by rw [hv]; rfl), fdu.trans (by rw [hv]; rfl), ppl.trans (by rw [hv]; rfl), sac.trans (by rw [hv]; rfl),
      rou.trans (by rw [hv]; rfl)⟩
    · rw [State.placeAll_cdu, cdu, hv]; rfl
    · rw [State.placeAll_cdu, cdu, hv]
    · rw [State.placeAll_cdu, cdu, hv]; rfl
    · rw [State.placeAll_bridge, State.complete_bridge, masked]
      generalize mask.getLsbD b.val = set
      obtain ⟨state, misses, lastStatus, lastTag, faultCode⟩ := s.bridge b
      cases set <;> cases state <;> rfl
    · rcases h with h | h
      · rw [h] at between; exact absurd between nofun
      · rw [h] at between; exact absurd between nofun
  · have waits : beginBridgeEnable n (s.slot n).command (s.clearOutputs.takeCommand n) =
        { s.clearOutputs.takeCommand n with cdu.newMask := some mask }.runs n .bridgeMask := if_neg between
    obtain ⟨runs, phase⟩ := beginning_runs (row := hasCode codeBridgeEnable) (body := beginBridgeEnable) (p := .bridgeMask)
      ready hrow rfl waits ⟨rfl, rfl, rfl, rfl, fun _ => id⟩ rfl rfl
    refine ⟨_, runs, fun h => absurd ?_ between, fun _ _ _ _ _ _ => ⟨phase, rfl⟩, rfl, rfl, rfl, rfl, rfl⟩
    rcases h with h | h | h
    all_goals rw [h]; rfl

end Sys2Proof.Machine
end

section
/-! PROOFS. What the operations of the record output change: one channel, by a rule about that channel alone, causes and own requests. -/

namespace Sys2Proof.Machine

variable {s t u : State} {ch : Fin 3}

/-! ### The frame of a channel -/

/-- From `s` to `t` only channel `ch` has changed, with the causes set and the own requests placed. -/
structure State.ChangesChannel (ch : Fin 3) (s t : State) : Prop where
  lcu : t.lcu = s.lcu
  fdu : t.fdu = s.fdu
  ppl : t.ppl = s.ppl
  cdu : t.cdu = s.cdu
  sac : t.sac = s.sac
  others : ∀ k, k ≠ ch → t.channel k = s.channel k
  tru : t.tru = { s.tru with placing := t.tru.placing }
  placed : ∀ r ∈ s.tru.placing, r ∈ t.tru.placing
  csu : t.csu = { s.csu with causes := t.csu.causes, statusWaiting := t.csu.statusWaiting }
  causes : ∀ i, s.csu.causes.getLsbD i = true → t.csu.causes.getLsbD i = true

theorem State.ChangesChannel.refl (ch : Fin 3) (s : State) : s.ChangesChannel ch s :=
  ⟨rfl, rfl, rfl, rfl, rfl, fun _ _ => rfl, rfl, fun _ => id, rfl, fun _ => id⟩

theorem State.ChangesChannel.trans (h : s.ChangesChannel ch t) (h' : t.ChangesChannel ch u) : s.ChangesChannel ch u where
  lcu := h'.lcu.trans h.lcu
  fdu := h'.fdu.trans h.fdu
  ppl := h'.ppl.trans h.ppl
  cdu := h'.cdu.trans h.cdu
  sac := h'.sac.trans h.sac
  others k hk := (h'.others k hk).trans (h.others k hk)
  tru := by rw [h'.tru, h.tru]
  placed r hr := h'.placed r (h.placed r hr)
  csu := by rw [h'.csu, h.csu]
  causes i hi := h'.causes i (h.causes i hi)

theorem State.onChannel_changes (ch : Fin 3) (f : Channel → Channel) (s : State) : s.ChangesChannel ch (s.onChannel ch f) :=
  ⟨rfl, rfl, rfl, rfl, rfl, fun _ hk => State.onChannel_channel_ne s f hk, rfl, fun _ => id, rfl, fun _ => id⟩

theorem State.place_changes (ch : Fin 3) (r : OwnRequest) (s : State) : s.ChangesChannel ch (s.place r) :=
  ⟨rfl, rfl, rfl, rfl, rfl, fun _ _ => rfl, rfl, fun _ h => List.mem_append_left _ h, rfl, fun _ => id⟩

theorem State.raise_placed (c : Cause) (s : State) : ∀ r ∈ s.tru.placing, r ∈ (s.raise c).tru.placing := by
  intro r hr
  unfold State.raise State.setCauses
  split
  · exact hr
  · rw [State.requestStatus_placing]
    split
    · exact hr
    · exact List.mem_append_left _ hr

theorem State.raise_changes (ch : Fin 3) (c : Cause) (s : State) : s.ChangesChannel ch (s.raise c) where
  lcu := State.raise_lcu _ _
  fdu := State.raise_fdu _ _
  ppl := State.raise_ppl _ _
  cdu := State.raise_cdu _ _
  sac := State.raise_sac _ _
  others _ _ := State.raise_channel _ _ _
  tru := State.raise_tru c s
  placed := State.raise_placed c s
  csu := State.raise_csu c s
  causes _ h := State.raise_keepsCauses h

/-! ### The rules, channel by channel -/

/-- The read of the descriptor at the current index (R142). -/
def Channel.fetchOf (ch : Fin 3) (c : Channel) : OwnRequest :=
  { purpose := .descriptor ch, kind := .read, addr := c.table + 32 * (c.index / 2), beats := 1, data := [] }

/-- A channel whose next descriptor is wanted: it fetches, unless an operation is pending (R142, R147, R148). -/
def Channel.refetched (c : Channel) : Channel :=
  { c with activity := if c.pendingOp = .none then .fetching else c.activity, entry := none, remaining := 0 }

theorem State.fetchUnlessPending_changes (ch : Fin 3) (s : State) : s.ChangesChannel ch (s.fetchUnlessPending ch) := by
  unfold State.fetchUnlessPending
  split
  · exact (State.onChannel_changes _ _ s).trans (State.place_changes _ _ _)
  · exact State.onChannel_changes _ _ s

theorem State.fetch_channel (ch : Fin 3) (s : State) :
    (s.fetch ch).channel ch = { s.channel ch with activity := .fetching, entry := none, remaining := 0 } :=
  State.onChannel_channel_same s ch fun c => { c with activity := .fetching, entry := none, remaining := 0 }

theorem State.fetchUnlessPending_refetched (ch : Fin 3) (s : State) : (s.fetchUnlessPending ch).channel ch = (s.channel ch).refetched := by
  unfold State.fetchUnlessPending Channel.refetched
  split
  · exact State.fetch_channel ch s
  · exact State.onChannel_channel_same s ch _

theorem State.fetchUnlessPending_placed (hp : (s.channel ch).pendingOp = .none) :
    (s.channel ch).fetchOf ch ∈ (s.fetchUnlessPending ch).tru.placing := by
  rw [State.fetchUnlessPending, if_pos hp]
  exact List.mem_append_right _ (List.mem_singleton_self _)

theorem Channel.restarted_pendingOp (c : Channel) : c.restarted.pendingOp = c.pendingOp := by
  unfold Channel.restarted
  split <;> rfl

theorem State.restart_changes (ch : Fin 3) (s : State) : s.ChangesChannel ch (s.restart ch) :=
  (State.onChannel_changes _ _ s).trans (State.fetchUnlessPending_changes _ _)

theorem State.restart_channel (ch : Fin 3) (s : State) : (s.restart ch).channel ch = (s.channel ch).restarted.refetched := by
  rw [State.restart_eq, State.fetchUnlessPending_refetched, State.onChannel_channel_same]

theorem State.restart_placed (hp : (s.channel ch).pendingOp = .none) :
    (s.channel ch).restarted.fetchOf ch ∈ (s.restart ch).tru.placing := by
  have placed := State.fetchUnlessPending_placed (s := s.onChannel ch Channel.restarted) (ch := ch)
  rw [State.onChannel_channel_same, Channel.restarted_pendingOp] at placed
  exact placed hp

/-- The loaded entry is the last: it carries EOL, or stands at index 255 (R145). -/
def Channel.atEnd (c : Channel) : Bool := c.eolSet || c.index == 255

/-- What a channel becomes that moves on from a filled entry (R145). -/
def Channel.movedOn (c : Channel) : Channel :=
  if c.atEnd then if c.restart.isSome || c.autoRestart then c.restarted.refetched else { c with state := .ended }
  else Channel.refetched { c with index := c.index + 1, state := .active }

theorem State.moveOn_of_end (h : (s.channel ch).atEnd = true) : s.moveOn ch =
    if (s.channel ch).restart.isSome || (s.channel ch).autoRestart then (s.raise (.chEol ch)).restart ch
    else (s.raise (.chEol ch)).onChannel ch fun c => { c with state := .ended } :=
  if_pos h

theorem State.moveOn_of_next (h : (s.channel ch).atEnd = false) : s.moveOn ch =
    (s.onChannel ch fun c => { c with index := c.index + 1, state := .active }).fetchUnlessPending ch :=
  if_neg (by rw [Channel.atEnd] at h; rw [h]; exact Bool.false_ne_true)

theorem State.moveOn_changes (ch : Fin 3) (s : State) : s.ChangesChannel ch (s.moveOn ch) := by
  cases h : (s.channel ch).atEnd with
  | true =>
    rw [State.moveOn_of_end h]
    split
    · exact (State.raise_changes _ _ s).trans (State.restart_changes _ _)
    · exact (State.raise_changes _ _ s).trans (State.onChannel_changes _ _ _)
  | false =>
    rw [State.moveOn_of_next h]
    exact (State.onChannel_changes _ _ s).trans (State.fetchUnlessPending_changes _ _)

theorem State.moveOn_channel (ch : Fin 3) (s : State) : (s.moveOn ch).channel ch = (s.channel ch).movedOn := by
  unfold Channel.movedOn
  cases h : (s.channel ch).atEnd with
  | true =>
    rw [State.moveOn_of_end h, if_pos rfl]
    split
    · rw [State.restart_channel, State.raise_channel]
    · rw [State.onChannel_channel_same, State.raise_channel]
  | false => rw [State.moveOn_of_next h, if_neg Bool.false_ne_true, State.fetchUnlessPending_refetched, State.onChannel_channel_same]

/-- At the last entry CH_EOL is raised (R145). -/
theorem State.moveOn_chEol (h : (s.channel ch).atEnd = true) : (s.moveOn ch).csu.causes.getLsbD (8 + ch.val) = true := by
  have raised : (s.raise (.chEol ch)).csu.causes.getLsbD (8 + ch.val) = true := State.raise_bit (.chEol ch) s
  rw [State.moveOn_of_end h]
  split
  · exact (State.restart_changes _ _).causes _ raised
  · exact raised

/-- Moving on to the next entry raises no cause (R145). -/
theorem State.moveOn_csu (h : (s.channel ch).atEnd = false) : (s.moveOn ch).csu = s.csu := by
  rw [State.moveOn_of_next h, State.fetchUnlessPending]
  split <;> rfl

/-- A channel that moves on and is not pending reads the descriptor of its new index (R142, R145). -/
theorem State.moveOn_placed (hp : (s.channel ch).pendingOp = .none) (h : (s.channel ch).movedOn.state = .active) :
    (s.channel ch).movedOn.fetchOf ch ∈ (s.moveOn ch).tru.placing := by
  unfold Channel.movedOn at h ⊢
  cases he : (s.channel ch).atEnd with
  | true =>
    rw [he, if_pos rfl] at h
    rw [State.moveOn_of_end he, if_pos rfl]
    split
    · have placed := State.restart_placed (s := s.raise (.chEol ch)) (ch := ch)
      rw [State.raise_channel] at placed
      exact placed hp
    · next ends =>
      rw [if_neg ends] at h
      exact absurd h nofun
  | false =>
    rw [State.moveOn_of_next he, if_neg Bool.false_ne_true]
    have placed := State.fetchUnlessPending_placed (s := s.onChannel ch fun c => { c with index := c.index + 1, state := .active }) (ch := ch)
    rw [State.onChannel_channel_same] at placed
    exact placed hp

/-- What a channel becomes whose entry has been filled, at its stop index or not (R145). -/
def Channel.filled (stops : Bool) (c : Channel) : Channel := if stops then { c with state := .held } else c.movedOn

/-- CH_FLAG, for an entry that carries FLAG (R145). -/
def State.flagged (ch : Fin 3) (s : State) : State := if (s.channel ch).flagSet then s.raise (.chFlag ch) else s

theorem State.entryFilled_eq (ch : Fin 3) (s : State) : s.entryFilled ch =
    if (s.flagged ch).atStop ch then ((s.flagged ch).onChannel ch fun c => { c with state := .held }).raise (.chStop ch)
    else (s.flagged ch).moveOn ch := rfl

theorem State.flagged_changes (ch : Fin 3) (s : State) : s.ChangesChannel ch (s.flagged ch) := by
  unfold State.flagged
  split
  · exact State.raise_changes ch _ s
  · exact .refl ch s

theorem State.flagged_channel (ch : Fin 3) (s : State) : (s.flagged ch).channel ch = s.channel ch := by
  unfold State.flagged
  split
  · exact State.raise_channel _ _ _
  · rfl

theorem State.flagged_atStop (ch : Fin 3) (s : State) : (s.flagged ch).atStop ch = s.atStop ch := by
  have word : (s.flagged ch).stopWord ch = s.stopWord ch :=
    (congrArg (fun t : Tru => t.stopShadow[ch]) (State.flagged_changes ch s).tru :)
  rw [State.atStop, State.atStop, State.stopIndex, State.stopIndex, State.flagged_channel, word]

theorem State.entryFilled_changes (ch : Fin 3) (s : State) : s.ChangesChannel ch (s.entryFilled ch) := by
  rw [State.entryFilled_eq]
  refine (State.flagged_changes ch s).trans ?_
  split
  · exact (State.onChannel_changes _ _ _).trans (State.raise_changes _ _ _)
  · exact State.moveOn_changes _ _

theorem State.entryFilled_channel (ch : Fin 3) (s : State) : (s.entryFilled ch).channel ch = (s.channel ch).filled (s.atStop ch) := by
  rw [State.entryFilled_eq, State.flagged_atStop, Channel.filled]
  split
  · rw [State.raise_channel, State.onChannel_channel_same, State.flagged_channel]
  · rw [State.moveOn_channel, State.flagged_channel]

/-- The causes that a filled entry raises (R145). -/
theorem State.entryFilled_causes (ch : Fin 3) (s : State) :
    ((s.channel ch).flagSet = true → (s.entryFilled ch).csu.causes.getLsbD (2 + ch.val) = true)
      ∧ (s.atStop ch = true → (s.entryFilled ch).csu.causes.getLsbD (5 + ch.val) = true)
      ∧ (s.atStop ch = false → (s.channel ch).atEnd = true → (s.entryFilled ch).csu.causes.getLsbD (8 + ch.val) = true) := by
  rw [State.entryFilled_eq, State.flagged_atStop]
  refine ⟨fun flag => ?_, fun stops => ?_, fun passes ends => ?_⟩
  · have raised : (s.flagged ch).csu.causes.getLsbD (2 + ch.val) = true := by
      rw [State.flagged, if_pos flag]
      exact State.raise_bit (.chFlag ch) s
    split
    · exact State.raise_keepsCauses raised
    · exact (State.moveOn_changes _ _).causes _ raised
  · rw [if_pos stops]
    exact State.raise_bit (.chStop ch) _
  · rw [if_neg (by rw [passes]; exact Bool.false_ne_true)]
    exact State.moveOn_chEol (by rw [State.flagged_channel]; exact ends)

theorem State.entryFilled_placed (hs : s.atStop ch = false) (hp : (s.channel ch).pendingOp = .none)
    (h : (s.channel ch).movedOn.state = .active) :
    (s.channel ch).movedOn.fetchOf ch ∈ (s.entryFilled ch).tru.placing := by
  rw [State.entryFilled_eq, State.flagged_atStop, if_neg (by rw [hs]; exact Bool.false_ne_true)]
  have placed := State.moveOn_placed (s := s.flagged ch) (ch := ch)
  rw [State.flagged_channel] at placed
  exact placed hp h

/-! ### The next write, and the close of an event of one channel -/

/-- The write of the head record `q` to the place of the loaded entry `d` (R143). -/
def Channel.writeOf (ch : Fin 3) (c : Channel) (d : Descriptor) (q : Record) : OwnRequest :=
  { purpose := .record ch, kind := .write, addr := d.buffer + (d.capacity - c.remaining) * (recordBeats ch * beatBytes)
    beats := recordBeats ch, data := q.bytes }

/-- A channel that can write the record at its head (R143). -/
structure Channel.Writes (c : Channel) (d : Descriptor) (q : Record) (rest : List Record) : Prop where
  entry : c.entry = some d
  queue : c.queue = q :: rest
  state : c.state = .active
  activity : c.activity = .none
  pendingOp : c.pendingOp = .none
  remaining : c.remaining ≠ 0

theorem State.writeNext_of_writes {d : Descriptor} {q : Record} {rest : List Record} (h : (s.channel ch).Writes d q rest) :
    s.writeNext ch = (s.onChannel ch fun c => { c with activity := .writing }).place ((s.channel ch).writeOf ch d q) := by
  unfold State.writeNext
  dsimp only
  rw [h.entry, h.queue]
  exact if_pos ⟨h.state, h.activity, h.pendingOp, h.remaining⟩

/-- What keeps a channel from writing (R143). -/
theorem State.canWrite_of_blocked (h : (s.channel ch).queue = [] ∨ (s.channel ch).state ≠ .active ∨ (s.channel ch).activity ≠ .none
    ∨ (s.channel ch).pendingOp ≠ .none ∨ (s.channel ch).remaining = 0 ∨ (s.channel ch).entry = none) : s.canWrite ch = false := by
  unfold State.canWrite
  rcases h with h | h | h | h | h | h
  all_goals simp [h]

theorem State.writeNext_changes (ch : Fin 3) (s : State) : s.ChangesChannel ch (s.writeNext ch) := by
  unfold State.writeNext
  dsimp only
  split
  · split
    · exact (State.onChannel_changes _ _ s).trans (State.place_changes _ _ _)
    · exact .refl ch s
  · exact .refl ch s

theorem State.writeAll_of_others (h : ∀ k, k ≠ ch → s.canWrite k = false) : s.writeAll = s.writeNext ch := by
  have still : ∀ k, k ≠ ch → s.writeNext k = s := fun k hk => State.writeNext_of_not (h k hk)
  have after : ∀ k, k ≠ ch → (s.writeNext ch).writeNext k = s.writeNext ch := fun k hk => State.writeNext_of_not (by
    have same := (State.writeNext_changes ch s).others k hk
    rw [State.canWrite, same]
    exact h k hk)
  unfold State.writeAll
  have all : ∀ c : Fin 3, c = 0 ∨ c = 1 ∨ c = 2 := by decide
  obtain rfl | rfl | rfl := all ch
  · exact (congrArg (State.writeNext 2) (after 1 (by decide))).trans (after 2 (by decide))
  · rw [still 0 (by decide)]
    exact after 2 (by decide)
  · rw [still 0 (by decide), still 1 (by decide)]

theorem State.noLoadDone_congr (hrun : t.csu.running = s.csu.running) (hfdu : t.fdu = s.fdu) (hppl : t.ppl = s.ppl)
    (hcdu : t.cdu = s.cdu) : t.noLoadDone = s.noLoadDone := by
  have staged : t.nothingStaged = s.nothingStaged := by rw [State.nothingStaged, State.nothingStaged, hfdu, hppl, hcdu]
  simp only [State.noLoadDone, State.stagedLoad, State.runningWith, hrun, staged, hfdu]

theorem State.classified_congr (h : t.tru.transit = s.tru.transit) : t.candidateClassified = s.candidateClassified := by
  simp only [State.candidateClassified, State.candidate, h]

/-- An event that changes one channel at most, and lets no load complete, ends with its next write and the places of own requests. -/
theorem State.AtRest.finish_of_others (h : s.AtRest) (loads : t.noLoadDone = true) (others : ∀ k, k ≠ ch → t.channel k = s.channel k)
    (transit : t.tru.transit = s.tru.transit) : t.finish = (t.writeNext ch).placeAll := by
  have blocked : ∀ k, k ≠ ch → t.canWrite k = false := fun k hk => by
    rw [State.canWrite, others k hk]
    exact h.writes k
  have candidate : (t.writeNext ch).candidateClassified = true := by
    have same : (t.writeNext ch).tru.transit = s.tru.transit := by rw [(State.writeNext_changes ch t).tru, ← transit]
    exact (State.classified_congr same).trans h.candidate
  rw [State.finish, State.completeLoads_of_noLoadDone loads, State.writeAll_of_others blocked,
    State.classifyCandidate_of_classified candidate]

theorem State.AtRest.finish_of_channel (h : s.AtRest) (ht : s.ChangesChannel ch t) : t.finish = (t.writeNext ch).placeAll :=
  h.finish_of_others ((State.noLoadDone_congr (by rw [ht.csu]) ht.fdu ht.ppl ht.cdu).trans h.loads) ht.others (by rw [ht.tru])

end Sys2Proof.Machine
end

section
/-! PROOFS. Stop words, returned descriptors and written records (O46 to O48). -/

namespace Sys2Proof.Machine

variable {s t u : State} {ch : Fin 3} {c : Channel}

/-! ### Moving on, case by case -/

theorem Channel.atEnd_eq_true_iff (c : Channel) : c.atEnd = true ↔ c.eolSet = true ∨ c.index = 255 := by
  rw [Channel.atEnd, Bool.or_eq_true, beq_iff_eq]

theorem Channel.atEnd_eq_false_iff (c : Channel) : c.atEnd = false ↔ c.eolSet = false ∧ c.index ≠ 255 := by
  rw [Channel.atEnd, Bool.or_eq_false_iff, beq_eq_false_iff_ne]

theorem Channel.refetched_of_none (hp : c.pendingOp = .none) :
    c.refetched = { c with activity := .fetching, entry := none, remaining := 0 } := by
  rw [Channel.refetched, if_pos hp]

theorem Channel.movedOn_of_next (h : c.atEnd = false) (hp : c.pendingOp = .none) : c.movedOn =
    { c with index := c.index + 1, state := .active, activity := .fetching, entry := none, remaining := 0 } := by
  rw [Channel.movedOn, h, if_neg Bool.false_ne_true]
  exact Channel.refetched_of_none hp

theorem Channel.movedOn_of_restart {table : Nat} {auto : Bool} (h : c.atEnd = true) (hr : c.restart = some (table, auto))
    (hp : c.pendingOp = .none) : c.movedOn =
    { c with
      table := table, autoRestart := auto, restart := none, index := 0, state := .active, activity := .fetching, entry := none
      remaining := 0 } := by
  have restarted : c.restarted = { c with table := table, autoRestart := auto, restart := none, index := 0, state := .active } := by
    rw [Channel.restarted, hr]
  rw [Channel.movedOn, h, if_pos rfl, if_pos (by rw [hr]; rfl), restarted]
  exact Channel.refetched_of_none hp

theorem Channel.movedOn_of_auto (h : c.atEnd = true) (hr : c.restart = none) (ha : c.autoRestart = true) (hp : c.pendingOp = .none) :
    c.movedOn = { c with index := 0, state := .active, activity := .fetching, entry := none, remaining := 0 } := by
  have restarted : c.restarted = { c with index := 0, state := .active } := by
    rw [Channel.restarted, hr]
  rw [Channel.movedOn, h, if_pos rfl, if_pos (by rw [hr, ha]; rfl), restarted]
  exact Channel.refetched_of_none hp

theorem Channel.movedOn_of_over (h : c.atEnd = true) (hr : c.restart = none) (ha : c.autoRestart = false) :
    c.movedOn = { c with state := .ended } := by
  rw [Channel.movedOn, h, if_pos rfl, if_neg (by rw [hr, ha]; exact Bool.false_ne_true)]

/-- A channel that has moved on with nothing pending fetches or has ended: it writes nothing (R143, R145). -/
theorem Channel.movedOn_idle (hp : c.pendingOp = .none) : c.movedOn.state ≠ .active ∨ c.movedOn.activity = .fetching := by
  cases h : c.atEnd with
  | false =>
    rw [Channel.movedOn_of_next h hp]
    exact .inr rfl
  | true =>
    cases hr : c.restart with
    | some pair =>
      rw [Channel.movedOn_of_restart h hr hp]
      exact .inr rfl
    | none =>
      cases ha : c.autoRestart with
      | true =>
        rw [Channel.movedOn_of_auto h hr ha hp]
        exact .inr rfl
      | false =>
        rw [Channel.movedOn_of_over h hr ha]
        exact .inl nofun

theorem State.canWrite_of_idle (h : (s.channel ch).state ≠ .active ∨ (s.channel ch).activity = .fetching) : s.canWrite ch = false :=
  State.canWrite_of_blocked (h.elim (fun h => .inr (.inl h)) fun h => .inr (.inr (.inl (by rw [h]; nofun))))

/-- Descriptor 0 lies at the start of the table (R142). -/
theorem Channel.fetchOf_of_first (h : c.index = 0) :
    c.fetchOf ch = { purpose := .descriptor ch, kind := .read, addr := c.table, beats := 1, data := [] } := by
  rw [Channel.fetchOf, h, Nat.zero_div, Nat.mul_zero, Nat.add_zero]

/-! ### Stop words -/

/-- The state in which a stop word has been observed (R131). -/
def State.stopSet (ch : Fin 3) (w : Word) (s : State) : State :=
  { s.clearOutputs with tru.stopShadow := s.tru.stopShadow.set ch w }

theorem State.stopSet_atStop (ch : Fin 3) (w : Word) (s : State) :
    (s.stopSet ch w).atStop ch = ((s.channel ch).index == w.toNat % 256) := by
  have word : (s.stopSet ch w).stopWord ch = w := Vector.getElem_set_self _
  rw [State.atStop, State.stopIndex, word]
  rfl

/-- A stop word that moves a HELD channel on (R146). -/
theorem stopWordWrite_moves {word : Word} {enables : BitVec 4} (hq : s.quiet = true) (he : enables ≠ 0)
    (hheld : (s.channel ch).state = .held) (hne : (mergeWord (s.stopWord ch) word enables).toNat % 256 ≠ (s.channel ch).index)
    (hp : (s.channel ch).pendingOp = .none) :
    exec (.stopWordWrite ch word enables) s = .next ((s.stopSet ch (mergeWord (s.stopWord ch) word enables)).moveOn ch).placeAll := by
  obtain ⟨settled, closed⟩ := State.quiet_iff.mp hq
  obtain ⟨b, hb⟩ : ∃ b, b = s.stopSet ch (mergeWord (s.stopWord ch) word enables) := ⟨_, rfl⟩
  have moves : b.stopWordWritten ch = b.moveOn ch := by
    refine if_pos ⟨by rw [hb]; exact hheld, ?_⟩
    rw [hb, State.stopSet_atStop, beq_eq_false_iff_ne]
    exact hne.symm
  have written : s.clearOutputs.stopWritten ch word enables = b.moveOn ch := by
    refine (if_neg he).trans (Eq.trans ?_ moves)
    rw [hb]
    rfl
  have rest : b.AtRest := by
    rw [hb]
    exact (State.closed_iff.mp closed).1.congr rfl rfl rfl rfl rfl
  have pending : (b.channel ch).pendingOp = .none := by rw [hb]; exact hp
  have idle : (b.moveOn ch).canWrite ch = false :=
    State.canWrite_of_idle (by rw [State.moveOn_channel]; exact Channel.movedOn_idle pending)
  rw [exec, execStopWordWrite, command_next settled, written, rest.finish_of_channel (State.moveOn_changes ch b),
    State.writeNext_of_not idle, ← hb]

/-- A request placed at an event stands in the queue, or waits, when the event has been closed. -/
theorem State.placeAll_of_placing {r : OwnRequest} (h : r ∈ s.tru.placing) : r ∈ s.placeAll.tru.own ++ s.placeAll.tru.waiting :=
  State.placeAll_requests s (List.mem_append_right _ h)

/-- Settles O48. -/
theorem stopWordMovesAHeldChannel : Obligations.StopWordMovesAHeldChannel := by
  intro s ch word enables hq he c now fetches kept
  obtain ⟨b, hb⟩ : ∃ b, b = s.stopSet ch now := ⟨_, rfl⟩
  have changes := State.moveOn_changes ch b
  have channel : (b.moveOn ch).channel ch = c.movedOn := by rw [State.moveOn_channel, hb]; rfl
  have keeps : kept (b.moveOn ch).placeAll := by
    refine ⟨?_, fun k hk => (changes.others k hk).trans (by rw [hb]; rfl), changes.lcu.trans (by rw [hb]; rfl),
      changes.fdu.trans (by rw [hb]; rfl), changes.ppl.trans (by rw [hb]; rfl), changes.cdu.trans (by rw [hb]; rfl),
      changes.sac.trans (by rw [hb]; rfl)⟩
    rw [State.placeAll_tru_stopShadow, changes.tru, hb]
    rfl
  have placed : c.pendingOp = .none → ∀ m, c.movedOn = m → m.state = .active →
      m.fetchOf ch ∈ (b.moveOn ch).placeAll.tru.own ++ (b.moveOn ch).placeAll.tru.waiting := fun hp m hm ha => by
    have request := State.moveOn_placed (s := b) (ch := ch) (by rw [hb]; exact hp) (by rw [hb]; exact hm ▸ ha)
    rw [← hm]
    exact State.placeAll_of_placing (by rw [hb] at request ⊢; exact request)
  refine ⟨fun still => ?_, fun held hne eol index hp => ?_, fun held hne hend hp => ?_⟩
  · have stays : s.clearOutputs.stopWritten ch word enables = b := by
      have unmoved : b.stopWordWritten ch = b := if_neg fun moves => by
        obtain ⟨held, passes⟩ := moves
        rw [hb, State.stopSet_atStop, beq_eq_false_iff_ne] at passes
        rw [hb] at held
        exact still.elim (fun h => h held) fun h => passes h.symm
      refine (if_neg he).trans (Eq.trans ?_ unmoved)
      rw [hb]
      rfl
    exact (command_of_quiet hq (by rw [stays, hb]; rfl)).trans (by rw [stays, hb]; rfl)
  · have notEnd : c.atEnd = false := c.atEnd_eq_false_iff.mpr ⟨eol, index⟩
    have moved := Channel.movedOn_of_next notEnd hp
    refine ⟨_, (stopWordWrite_moves hq he held hne hp).trans (by rw [hb]), keeps, channel.trans moved, placed hp _ moved rfl, ?_⟩
    exact (State.moveOn_csu (by rw [hb]; exact notEnd)).trans (by rw [hb]; rfl)
  · have atEnd : c.atEnd = true := c.atEnd_eq_true_iff.mpr hend
    refine ⟨_, (stopWordWrite_moves hq he held hne hp).trans (by rw [hb]), keeps, State.moveOn_chEol (by rw [hb]; exact atEnd),
      fun table auto hr => ?_, fun hr ha => ?_, fun hr ha => ?_⟩
    · have moved := Channel.movedOn_of_restart atEnd hr hp
      have request := placed hp _ moved rfl
      rw [Channel.fetchOf_of_first rfl] at request
      exact ⟨channel.trans moved, request⟩
    · have moved := Channel.movedOn_of_auto atEnd hr ha hp
      have request := placed hp _ moved rfl
      rw [Channel.fetchOf_of_first rfl] at request
      exact ⟨channel.trans moved, request⟩
    · exact channel.trans (Channel.movedOn_of_over atEnd hr ha)

/-! ### Returns from memory -/

/-- The oldest granted request has been answered. -/
def State.answeredTo (flight : List InFlight) (s : State) : State := { s.clearOutputs with tru.flight := flight }

/-- An own read returns (R132). -/
theorem exec_ownReadReturn {r : OwnRequest} {flight : List InFlight} {data : List Byte} (hs : s.settled = true)
    (hf : s.tru.flight = .own r :: flight) (hk : r.kind = .read) (hl : data.length = 32 * r.beats) :
    exec (.ownReadReturn data) s = .next (State.ownReadReturned r.purpose data (s.answeredTo flight)).finish := by
  have returns : s.clearOutputs.ownReadReturn data = State.ownReadReturned r.purpose data (s.answeredTo flight) := by
    have flies : s.clearOutputs.tru.flight = .own r :: flight := hf
    have good : r.kind = .read ∧ data.length = r.beats * beatBytes := ⟨hk, hl.trans (Nat.mul_comm _ _)⟩
    simp only [State.ownReadReturn, State.answered, flies, if_pos good]
    rfl
  rw [exec, execOwnReadReturn, command_next hs, returns]

/-- An own write completes (R133). -/
theorem exec_ownWriteCompletion {r : OwnRequest} {flight : List InFlight} (hs : s.settled = true)
    (hf : s.tru.flight = .own r :: flight) (hk : r.kind = .write) :
    exec .ownWriteCompletion s = .next (State.ownWriteCompleted r.purpose (s.answeredTo flight)).finish := by
  have completes : s.clearOutputs.ownWriteCompletion = State.ownWriteCompleted r.purpose (s.answeredTo flight) := by
    have flies : s.clearOutputs.tru.flight = .own r :: flight := hf
    simp only [State.ownWriteCompletion, State.answered, flies, if_pos hk]
    rfl
  rw [exec, execOwnWriteCompletion, command_next hs, completes]

theorem State.atRest_answeredTo (flight : List InFlight) (h : s.closed = true) : (s.answeredTo flight).AtRest :=
  (State.closed_iff.mp h).1.congr rfl rfl rfl rfl rfl

/-! ### Descriptors -/

theorem Descriptor.bad_iff (ch : Fin 3) (d : Descriptor) :
    d.bad ch = true ↔ d.capacity = 0 ∨ d.buffer % 32 ≠ 0 ∨ 2 ^ 40 < d.buffer + d.capacity * (32 * recordBeats ch) := by
  rw [Descriptor.bad, Bool.or_eq_true, Bool.or_eq_true, decide_eq_true_iff, decide_eq_true_iff, decide_eq_true_iff, or_assoc,
    Nat.mul_comm (recordBeats ch)]
  rfl

theorem State.settlePending_of_none (h : (s.channel ch).pendingOp = .none) : s.settlePending ch = s := by
  rw [State.settlePending, h]

/-- The channel before its returned descriptor is judged. -/
def State.judgeDescriptor (ch : Fin 3) (d : Descriptor) (s : State) : State :=
  if d.bad ch then (s.onChannel ch fun c => { c with activity := .none, state := .fault, entry := none }).raise .chFault
  else s.onChannel ch fun c => { c with activity := .none, entry := some d, remaining := d.capacity }

/-- A returned descriptor is judged, unless a TERMINATE is pending; then a pending operation takes effect (R142, R147, R148). -/
theorem State.descriptorReturn_eq (beat : List Byte) (h : (s.channel ch).pendingOp ≠ .terminate) :
    s.descriptorReturn ch beat = (s.judgeDescriptor ch (descriptorOf (s.channel ch).index beat)).settlePending ch := by
  have twice : ∀ f g : Channel → Channel, (s.onChannel ch f).onChannel ch g = s.onChannel ch (g ∘ f) := fun f g => by
    simp [State.onChannel, State.channel]
  unfold State.descriptorReturn State.judgeDescriptor
  dsimp only
  rw [if_neg h, twice, twice]
  rfl

theorem State.judgeDescriptor_changes (ch : Fin 3) (d : Descriptor) (s : State) : s.ChangesChannel ch (s.judgeDescriptor ch d) := by
  unfold State.judgeDescriptor
  split
  · exact (State.onChannel_changes _ _ s).trans (State.raise_changes _ _ _)
  · exact State.onChannel_changes _ _ s

/-- Settles O46. -/
theorem descriptorReturns : Obligations.DescriptorReturns := by
  intro s r flight data ch hq hf hpurpose hkind hlength hstate hactivity hp c half buffer capacity bad
  obtain ⟨settled, closed⟩ := State.quiet_iff.mp hq
  obtain ⟨b, hb⟩ : ∃ b, b = s.answeredTo flight := ⟨_, rfl⟩
  obtain ⟨d, hd⟩ : ∃ d, d = descriptorOf c.index data := ⟨_, rfl⟩
  obtain ⟨t, ht⟩ : ∃ t, t = b.judgeDescriptor ch d := ⟨_, rfl⟩
  have same : b.channel ch = c := by rw [hb]; rfl
  have changes : b.ChangesChannel ch t := ht ▸ State.judgeDescriptor_changes ch d b
  have judged : (d.bad ch = true → t.channel ch = { c with state := .fault, entry := none, activity := .none }
        ∧ t.csu.causes.getLsbD 11 = true)
      ∧ (d.bad ch = false → t.channel ch = { c with entry := some d, remaining := d.capacity, activity := .none } ∧ t.csu = s.csu) := by
    rw [ht, State.judgeDescriptor]
    refine ⟨fun h => ?_, fun h => ?_⟩
    · rw [if_pos h, State.raise_channel, State.onChannel_channel_same, same]
      exact ⟨rfl, State.raise_bit .chFault _⟩
    · rw [if_neg (by rw [h]; exact Bool.false_ne_true), State.onChannel_channel_same, same, hb]
      exact ⟨rfl, rfl⟩
  have pending : (t.channel ch).pendingOp = .none := by
    cases h : d.bad ch with
    | true => rw [(judged.1 h).1]; exact hp
    | false => rw [(judged.2 h).1]; exact hp
  have returned : State.ownReadReturned r.purpose data b = t := by
    rw [hpurpose]
    refine (State.descriptorReturn_eq data (by rw [same, hp]; nofun)).trans ?_
    rw [same, ← hd, ← ht, State.settlePending_of_none pending]
  have rest : b.AtRest := hb ▸ State.atRest_answeredTo flight closed
  have runs : exec (.ownReadReturn data) s = .next (t.writeNext ch).placeAll := by
    rw [exec_ownReadReturn settled hf hkind hlength, ← hb, returned, rest.finish_of_channel changes]
  have after := changes.trans (State.writeNext_changes ch t)
  have badIff : bad ↔ d.bad ch = true := by rw [Descriptor.bad_iff, hd]; exact Iff.rfl
  refine ⟨_, runs, by rw [State.placeAll_tru_flight, after.tru, hb]; rfl, fun hbad => ?_, fun hgood => ?_,
    fun k hk => (after.others k hk).trans (by rw [hb]; rfl), after.lcu.trans (by rw [hb]; rfl), after.fdu.trans (by rw [hb]; rfl),
    after.ppl.trans (by rw [hb]; rfl), after.cdu.trans (by rw [hb]; rfl), after.sac.trans (by rw [hb]; rfl)⟩
  · obtain ⟨channel, causes⟩ := judged.1 (badIff.mp hbad)
    have idle : t.canWrite ch = false := State.canWrite_of_idle (.inl (by rw [channel]; nofun))
    rw [State.writeNext_of_not idle, State.placeAll_channel]
    exact ⟨channel, causes⟩
  · have good : d.bad ch = false := Bool.eq_false_iff.mpr (mt badIff.mpr hgood)
    have capacityOf : d.capacity = capacity := by rw [hd]; rfl
    obtain ⟨channel, csu⟩ := judged.2 good
    refine ⟨d, by rw [hd]; rfl, capacityOf, by rw [hd]; rfl, by rw [hd]; rfl, ?_⟩
    by_cases hqueue : c.queue = []
    · have idle : t.canWrite ch = false := State.canWrite_of_blocked (.inl (by rw [channel]; exact hqueue))
      rw [State.writeNext_of_not idle, State.placeAll_channel, State.placeAll_csu, csu, channel, capacityOf, if_pos hqueue]
      refine ⟨rfl, rfl, fun q hq' => ?_⟩
      rw [hqueue] at hq'
      exact absurd hq'.symm (Option.some_ne_none q)
    · obtain ⟨q, rest, hcons⟩ := List.exists_cons_of_ne_nil hqueue
      have nonempty : capacity ≠ 0 := fun h => hgood (.inl h)
      have writes : (t.channel ch).Writes d q rest := by
        rw [channel]
        exact ⟨rfl, hcons, hstate, rfl, hp, by rw [capacityOf]; exact nonempty⟩
      have request : (t.channel ch).writeOf ch d q =
          { purpose := .record ch, kind := .write, addr := buffer, beats := recordBeats ch, data := q.bytes } := by
        have bufferOf : d.buffer = buffer := by rw [hd]; rfl
        rw [channel, Channel.writeOf, Nat.sub_self, Nat.zero_mul, Nat.add_zero, bufferOf]
      rw [State.writeNext_of_writes writes, request]
      refine ⟨?_, congrArg Csu.causes csu, fun q' hq' => ?_⟩
      · refine (State.onChannel_channel_same t ch fun c => { c with activity := .writing }).trans ?_
        rw [channel, capacityOf, if_neg hqueue]
      · rw [hcons] at hq'
        obtain rfl := Option.some.inj hq'
        exact State.placeAll_of_placing (List.mem_append_right _ (List.mem_singleton_self _))

/-! ### Records -/

/-- The channel whose head record has been written (R144). -/
def Channel.afterWrite (c : Channel) : Channel :=
  { c with queue := c.queue.tail, written := c.written + 1, remaining := c.remaining - 1, activity := .none }

/-- The rule of a completed record write, before a pending operation takes effect (R144, R145). -/
def State.recordTaken (ch : Fin 3) (s : State) : State :=
  if (s.channel ch).afterWrite.remaining = 0 then (s.onChannel ch Channel.afterWrite).entryFilled ch
  else s.onChannel ch Channel.afterWrite

theorem State.recordWritten_eq (h : (s.channel ch).pendingOp ≠ .terminate) : s.recordWritten ch = (s.recordTaken ch).settlePending ch := by
  have unterminated : (((s.onChannel ch Channel.afterWrite).channel ch).remaining = 0 ∧ ¬(s.channel ch).pendingOp = .terminate) ↔
      (s.channel ch).afterWrite.remaining = 0 := by
    rw [State.onChannel_channel_same]
    exact and_iff_left h
  exact congrArg (State.settlePending ch) (ite_of_iff unterminated _ _)

theorem State.recordTaken_changes (ch : Fin 3) (s : State) : s.ChangesChannel ch (s.recordTaken ch) := by
  unfold State.recordTaken
  split
  · exact (State.onChannel_changes _ _ s).trans (State.entryFilled_changes _ _)
  · exact State.onChannel_changes _ _ s

theorem State.recordTaken_channel (ch : Fin 3) (s : State) : (s.recordTaken ch).channel ch =
    if (s.channel ch).afterWrite.remaining = 0 then (s.channel ch).afterWrite.filled (s.atStop ch) else (s.channel ch).afterWrite := by
  have stop : (s.onChannel ch Channel.afterWrite).atStop ch = s.atStop ch := by
    rw [State.atStop, State.atStop, State.onChannel_channel_same, State.stopIndex, State.stopIndex, State.onChannel_stopWord]
    rfl
  unfold State.recordTaken
  split
  · rw [State.entryFilled_channel, State.onChannel_channel_same, stop]
  · rw [State.onChannel_channel_same]

theorem Channel.filled_remaining (h : c.remaining = 0) (stops : Bool) : (c.filled stops).remaining = 0 := by
  unfold Channel.filled Channel.movedOn
  split
  · exact h
  · split
    · split
      · rfl
      · exact h
    · rfl

theorem Channel.movedOn_pendingOp (c : Channel) : c.movedOn.pendingOp = c.pendingOp := by
  unfold Channel.movedOn
  split
  · split
    · exact Channel.restarted_pendingOp c
    · rfl
  · rfl

theorem Channel.filled_pendingOp (c : Channel) (stops : Bool) : (c.filled stops).pendingOp = c.pendingOp := by
  unfold Channel.filled
  split
  · rfl
  · exact c.movedOn_pendingOp

/-- What the completed write of the last record of an entry raises, and reads, on a channel at or past its stop index (R145). -/
theorem State.recordTaken_of_last (h : (s.channel ch).afterWrite.remaining = 0) :
    ((s.channel ch).flagSet = true → (s.recordTaken ch).csu.causes.getLsbD (2 + ch.val) = true)
      ∧ (s.atStop ch = true → (s.recordTaken ch).csu.causes.getLsbD (5 + ch.val) = true)
      ∧ (s.atStop ch = false → (s.channel ch).atEnd = true → (s.recordTaken ch).csu.causes.getLsbD (8 + ch.val) = true)
      ∧ (s.atStop ch = false → (s.channel ch).pendingOp = .none → (s.channel ch).afterWrite.movedOn.state = .active →
          (s.channel ch).afterWrite.movedOn.fetchOf ch ∈ (s.recordTaken ch).tru.placing) := by
  have stop : (s.onChannel ch Channel.afterWrite).atStop ch = s.atStop ch := by
    rw [State.atStop, State.atStop, State.onChannel_channel_same, State.stopIndex, State.stopIndex, State.onChannel_stopWord]
    rfl
  obtain ⟨flag, stops, ends⟩ := State.entryFilled_causes ch (s.onChannel ch Channel.afterWrite)
  have placed := State.entryFilled_placed (s := s.onChannel ch Channel.afterWrite) (ch := ch)
  rw [State.onChannel_channel_same] at flag ends placed
  rw [stop] at stops ends placed
  rw [State.recordTaken, if_pos h]
  exact ⟨flag, stops, ends, placed⟩

/-- Settles O47. -/
theorem recordIsWritten : Obligations.RecordIsWritten := by
  intro s r flight ch q rest d hq hf hpurpose hkind hstate hactivity hp hentry hqueue c fetches
  obtain ⟨settled, closed⟩ := State.quiet_iff.mp hq
  obtain ⟨b, hb⟩ : ∃ b, b = s.answeredTo flight := ⟨_, rfl⟩
  have same : b.channel ch = c := by rw [hb]; rfl
  have stop : b.atStop ch = (c.index == (s.stopWord ch).toNat % 256) := by rw [hb]; rfl
  have changes := State.recordTaken_changes ch b
  have channel := State.recordTaken_channel ch b
  rw [same, stop] at channel
  have pending : ((b.recordTaken ch).channel ch).pendingOp = .none := by
    rw [channel]
    split
    · exact (Channel.filled_pendingOp _ _).trans hp
    · exact hp
  have completed : State.ownWriteCompleted r.purpose b = b.recordTaken ch := by
    rw [hpurpose]
    exact (State.recordWritten_eq (by rw [same, hp]; nofun)).trans (State.settlePending_of_none pending)
  have atRest : b.AtRest := hb ▸ State.atRest_answeredTo flight closed
  have runs : exec .ownWriteCompletion s = .next ((b.recordTaken ch).writeNext ch).placeAll := by
    rw [exec_ownWriteCompletion settled hf hkind, ← hb, completed, atRest.finish_of_channel changes]
  have after := changes.trans (State.writeNext_changes ch (b.recordTaken ch))
  have written : c.afterWrite = { c with queue := rest, written := c.written + 1, remaining := c.remaining - 1, activity := .none } := by
    rw [Channel.afterWrite, show c.queue = q :: rest from hqueue, List.tail_cons]
  have last : c.remaining = 1 → c.afterWrite.remaining = 0 := fun h => by rw [Channel.afterWrite, h]
  have blocked : c.remaining = 1 → (b.recordTaken ch).writeNext ch = b.recordTaken ch := fun h =>
    State.writeNext_of_not (State.canWrite_of_blocked (.inr (.inr (.inr (.inr (.inl (by
      rw [channel, if_pos (last h)]
      exact Channel.filled_remaining (last h) _)))))))
  refine ⟨_, runs, by rw [State.placeAll_tru_flight, after.tru, hb]; rfl, fun many => ?_, fun one atStop => ?_,
    fun one pass eol index => ?_, fun one pass ends => ?_,
    fun k hk => (after.others k hk).trans (by rw [hb]; rfl), after.lcu.trans (by rw [hb]; rfl), after.fdu.trans (by rw [hb]; rfl),
    after.ppl.trans (by rw [hb]; rfl), after.cdu.trans (by rw [hb]; rfl), after.sac.trans (by rw [hb]; rfl)⟩
  · have room : c.afterWrite.remaining ≠ 0 := by
      have : c.afterWrite.remaining = c.remaining - 1 := rfl
      omega
    have taken : b.recordTaken ch = b.onChannel ch Channel.afterWrite := by
      rw [State.recordTaken, same, if_neg room]
    rw [if_neg room] at channel
    by_cases empty : rest = []
    · have idle : (b.recordTaken ch).canWrite ch = false := State.canWrite_of_blocked (.inl (by rw [channel, written]; exact empty))
      rw [State.writeNext_of_not idle, State.placeAll_channel, channel, written, if_pos empty, taken, hb]
      exact ⟨rfl, rfl⟩
    · obtain ⟨q', rest', hcons⟩ := List.exists_cons_of_ne_nil empty
      have writes : ((b.recordTaken ch).channel ch).Writes d q' rest' := by
        rw [channel, written]
        exact ⟨hentry, hcons, hstate, rfl, hp, Nat.sub_ne_zero_of_lt many⟩
      rw [State.writeNext_of_writes writes]
      refine ⟨(State.onChannel_channel_same _ ch fun c => { c with activity := .writing }).trans ?_, ?_⟩
      · rw [channel, written, if_neg empty]
      · rw [taken, hb]
        rfl
  all_goals
    have filled := last one
    obtain ⟨flag, stops, chEol, placed⟩ := State.recordTaken_of_last (s := b) (ch := ch) (by rw [same]; exact filled)
    rw [same] at flag chEol placed
    rw [stop] at stops chEol placed
    rw [if_pos filled] at channel
    rw [blocked one, State.placeAll_channel, State.placeAll_csu, channel]
    have flagged : d.flag = true → c.flagSet = true := fun h => by
      rw [Channel.flagSet, show c.entry = some d from hentry]
      exact h
    have zero : c.afterWrite = { c with queue := rest, written := c.written + 1, remaining := 0, activity := .none } := by
      rw [written, one]
    have active : c.state = .active := hstate
  · have held : (c.index == (s.stopWord ch).toNat % 256) = true := beq_iff_eq.mpr atStop
    rw [held, Channel.filled, if_pos rfl, zero]
    exact ⟨rfl, stops held, fun h => flag (flagged h)⟩
  all_goals
    have passes : (c.index == (s.stopWord ch).toNat % 256) = false := beq_eq_false_iff_ne.mpr pass
    rw [passes, Channel.filled, if_neg Bool.false_ne_true]
  · have notEnd : c.afterWrite.atEnd = false := c.afterWrite.atEnd_eq_false_iff.mpr ⟨by
      rw [Channel.eolSet, show c.afterWrite.entry = some d from hentry]
      exact eol, index⟩
    have moved := Channel.movedOn_of_next notEnd (show c.afterWrite.pendingOp = .none from hp)
    have request := placed passes hp (by rw [moved])
    rw [moved] at request ⊢
    rw [active]
    exact ⟨by rw [zero], fun h => flag (flagged h), State.placeAll_of_placing request⟩
  · have atEnd : c.afterWrite.atEnd = true := c.afterWrite.atEnd_eq_true_iff.mpr (ends.imp (fun eol => by
      rw [Channel.eolSet, show c.afterWrite.entry = some d from hentry]
      exact eol) id)
    refine ⟨chEol passes atEnd, fun h => flag (flagged h), fun table auto hr => ?_, fun hr ha => ?_, fun hr ha => ?_⟩
    · have moved := Channel.movedOn_of_restart atEnd hr (show c.afterWrite.pendingOp = .none from hp)
      have request := placed passes hp (by rw [moved])
      rw [moved] at request ⊢
      rw [Channel.fetchOf_of_first rfl] at request
      rw [active]
      exact ⟨by rw [zero], State.placeAll_of_placing request⟩
    · have moved := Channel.movedOn_of_auto atEnd hr ha (show c.afterWrite.pendingOp = .none from hp)
      have request := placed passes hp (by rw [moved])
      rw [moved] at request ⊢
      rw [Channel.fetchOf_of_first rfl] at request
      rw [active]
      exact ⟨by rw [zero], State.placeAll_of_placing request⟩
    · rw [Channel.movedOn_of_over atEnd hr ha, zero]

end Sys2Proof.Machine
end

section
/-! PROOFS. CHANNEL START (O49). -/

namespace Sys2Proof.Machine

variable {s t u : State} {ch : Fin 3}

/-! ### A CHANNEL command begins -/

theorem State.ChangesChannel.sparesCommands (h : s.ChangesChannel ch t) : s.SparesCommands t :=
  ⟨by rw [h.csu], by rw [h.csu], by rw [h.csu], by rw [h.tru], h.causes⟩

section
variable {n : Fin 8} {row : Command → Bool} {body : Fin 8 → Command → State → State}

/-- A command that begins with no other running, changes one channel at most and completes (R159, R160). -/
theorem beginning_completes_channel {st : Status} {v : Word} (ch : Fin 3) (h : s.readyFor n) (hrow : row (s.slot n).command = true)
    (hbody : body n (s.slot n).command (s.clearOutputs.takeCommand n) = u.complete n st v)
    (hu : (s.clearOutputs.takeCommand n).SparesCommands u) (others : ∀ k, k ≠ ch → u.channel k = s.channel k)
    (ht : u.tru.transit = s.tru.transit) :
    beginning row body s = .next ((u.complete n st v).writeNext ch).placeAll
      ∧ s.CompletesAs ((u.complete n st v).writeNext ch).placeAll n st v := by
  have idle : (u.complete n st v).csu.running = [] := by
    rw [State.complete_running, hu.running]
    exact congrArg (List.filter _) h.2.2
  have rest := (State.closed_iff.mp (State.quiet_iff.mp h.1).2).1
  have ends : (u.complete n st v).finish = ((u.complete n st v).writeNext ch).placeAll :=
    rest.finish_of_others (State.noLoadDone_of_no_load (no_load_of_idle idle))
      (fun k hk => (State.complete_channel u n st v k).trans (others k hk)) ((State.complete_tru_transit u n st v).trans ht)
  rw [← ends, command_of_ready h hrow, hbody]
  exact ⟨rfl, State.completesAs h hu⟩

/-- A command that begins with no other running, changes one channel at most and runs on (R159). -/
theorem beginning_runs_channel {p : Phase} (ch : Fin 3) (h : s.readyFor n) (hrow : row (s.slot n).command = true)
    (hp : p.loadWaits = false) (hbody : body n (s.slot n).command (s.clearOutputs.takeCommand n) = u)
    (hu : ((s.clearOutputs.takeCommand n).runs n p).SparesCommands u) (others : ∀ k, k ≠ ch → u.channel k = s.channel k)
    (ht : u.tru.transit = s.tru.transit) :
    beginning row body s = .next (u.writeNext ch).placeAll ∧ s.RunsIn (u.writeNext ch).placeAll n p := by
  have fresh : ∀ r ∈ u.csu.running, r.phase.loadWaits = false := fun r hr => by
    rw [hu.running] at hr
    have none : (s.clearOutputs.takeCommand n).csu.running = [] := h.2.2
    rw [State.runs, none, List.nil_append] at hr
    rw [List.mem_singleton.mp hr]
    exact hp
  have rest := (State.closed_iff.mp (State.quiet_iff.mp h.1).2).1
  have ends : u.finish = (u.writeNext ch).placeAll := rest.finish_of_others (State.noLoadDone_of_no_load fresh) others ht
  rw [← ends, command_of_ready h hrow, hbody]
  exact ⟨rfl, State.runsIn h hp hu⟩

end

/-- A CHANNEL command whose channel and operation are defined is left to its body (R161). -/
theorem beginChannel_of_defined {op : Nat} {body : Fin 3 → Fin 8 → Command → State → State} {n : Fin 8} {c : Command}
    (hch : c.arg1.toNat % 256 = ch.val) (hop : c.arg1.toNat / 256 % 256 = op) : beginChannel op body n c s = body ch n c s := by
  have below : c.arg1.toNat % 256 < 3 := by rw [hch]; exact ch.isLt
  have same : (⟨c.arg1.toNat % 256, below⟩ : Fin 3) = ch := Fin.ext hch
  refine (dif_pos below).trans ((if_pos hop).trans ?_)
  rw [same]

theorem hasChannelOp_of {op : Nat} {c : Command} (hc : c.code = 0x30) (hop : c.arg1.toNat / 256 % 256 = op) : hasChannelOp op c = true := by
  rw [hasChannelOp, hc, channelOperation, hop]
  simp [codeChannel]

/-- On a quiet part no channel can write. -/
theorem State.canWrite_of_ready {n : Fin 8} (h : s.readyFor n) (ch : Fin 3) : s.canWrite ch = false :=
  (State.closed_iff.mp (State.quiet_iff.mp h.1).2).1.writes ch

/-! ### CHANNEL START -/

theorem badTable_iff (table : Nat) : badTable table = true ↔ table % 32 ≠ 0 ∨ 2 ^ 40 < table + 4096 := by
  rw [badTable, Bool.or_eq_true, decide_eq_true_iff, decide_eq_true_iff]
  rfl

/-- What a fetch leaves alone, and reads (R142). -/
theorem State.fetch_changes (ch : Fin 3) (s : State) : s.ChangesChannel ch (s.fetch ch) :=
  (State.onChannel_changes _ _ s).trans (State.place_changes _ _ _)

section
variable {n : Fin 8} {c : Command} {table : Nat} {auto : Bool}

theorem channelStartBody_of_bad (h : badTable (addressOf c.arg2 c.arg3) = true) :
    channelStartBody ch n c s = s.complete n .badArg (s.channelValue ch) := if_pos h

theorem channelStartBody_of_good (h : ¬badTable (addressOf c.arg2 c.arg3) = true) : channelStartBody ch n c s =
    (s.channelStarted ch (addressOf c.arg2 c.arg3) (c.arg1.getLsbD 16)).1.complete n
      (s.channelStarted ch (addressOf c.arg2 c.arg3) (c.arg1.getLsbD 16)).2
      ((s.channelStarted ch (addressOf c.arg2 c.arg3) (c.arg1.getLsbD 16)).1.channelValue ch) := if_neg h

/-- A channel that is stopped, ended or faulted starts (R141). -/
theorem channelStartBody_of_halted (hgood : ¬badTable (addressOf c.arg2 c.arg3) = true)
    (h : (s.channel ch).state = .stopped ∨ (s.channel ch).state = .ended ∨ (s.channel ch).state = .fault) :
    channelStartBody ch n c s =
      ((s.onChannel ch fun x => { x with
          table := addressOf c.arg2 c.arg3, autoRestart := c.arg1.getLsbD 16, index := 0, restart := none, state := .active }).fetch
        ch).complete n .ok 1 := by
  have started : s.channelStarted ch (addressOf c.arg2 c.arg3) (c.arg1.getLsbD 16) =
      ((s.onChannel ch fun x => { x with
          table := addressOf c.arg2 c.arg3, autoRestart := c.arg1.getLsbD 16, index := 0, restart := none, state := .active }).fetch ch,
        .ok) := by
    rcases h with h | h | h
    all_goals rw [State.channelStarted, h]
  rw [channelStartBody_of_good hgood, started]
  dsimp only
  rw [State.channelValue, State.fetch_channel, State.onChannel_channel_same]
  rfl

/-- A channel that is ACTIVE or HELD queues the restart (R141). -/
theorem channelStartBody_of_busy (hgood : ¬badTable (addressOf c.arg2 c.arg3) = true)
    (h : (s.channel ch).state = .active ∨ (s.channel ch).state = .held) :
    channelStartBody ch n c s =
      (s.onChannel ch fun x => { x with restart := some (addressOf c.arg2 c.arg3, c.arg1.getLsbD 16) }).complete n .ok
        (BitVec.ofNat 32 (s.channel ch).state.code) := by
  have started : s.channelStarted ch (addressOf c.arg2 c.arg3) (c.arg1.getLsbD 16) =
      (s.onChannel ch fun x => { x with restart := some (addressOf c.arg2 c.arg3, c.arg1.getLsbD 16) }, .ok) := by
    rcases h with h | h
    all_goals rw [State.channelStarted, h]
  rw [channelStartBody_of_good hgood, started]
  dsimp only
  rw [State.channelValue, State.onChannel_channel_same]

/-- A PAUSED channel refuses (R141). -/
theorem channelStartBody_of_paused (hgood : ¬badTable (addressOf c.arg2 c.arg3) = true) (h : (s.channel ch).state = .paused) :
    channelStartBody ch n c s = s.complete n .badState 3 := by
  have started : s.channelStarted ch (addressOf c.arg2 c.arg3) (c.arg1.getLsbD 16) = (s, .badState) := by
    rw [State.channelStarted, h]
  rw [channelStartBody_of_good hgood, started]
  dsimp only
  rw [State.channelValue, h]
  rfl

end

theorem State.fetch_placed (ch : Fin 3) (s : State) : (s.channel ch).fetchOf ch ∈ (s.fetch ch).tru.placing :=
  List.mem_append_right _ (List.mem_singleton_self _)

/-- CHANNEL START of a channel that is stopped, ended or faulted (R141). -/
theorem exec_channelStart_halted {n : Fin 8} (ready : s.readyFor n) (hrow : hasChannelOp 1 (s.slot n).command = true)
    (hch : (s.slot n).command.arg1.toNat % 256 = ch.val) (hop : (s.slot n).command.arg1.toNat / 256 % 256 = 1)
    (good : ¬badTable (addressOf (s.slot n).command.arg2 (s.slot n).command.arg3) = true)
    (halted : (s.channel ch).state = .stopped ∨ (s.channel ch).state = .ended ∨ (s.channel ch).state = .fault) :
    ∃ w, (s.clearOutputs.takeCommand n).ChangesChannel ch w
      ∧ w.channel ch = { s.channel ch with
          table := addressOf (s.slot n).command.arg2 (s.slot n).command.arg3, autoRestart := (s.slot n).command.arg1.getLsbD 16
          restart := none, index := 0, state := .active, activity := .fetching, entry := none, remaining := 0 }
      ∧ { purpose := .descriptor ch, kind := .read, addr := addressOf (s.slot n).command.arg2 (s.slot n).command.arg3, beats := 1
          data := [] } ∈ w.tru.placing
      ∧ exec .channelStart s = .next (w.complete n .ok 1).placeAll ∧ s.CompletesAs (w.complete n .ok 1).placeAll n .ok 1 := by
  obtain ⟨v, hv⟩ : ∃ v, v = (s.clearOutputs.takeCommand n).onChannel ch fun x => { x with
      table := addressOf (s.slot n).command.arg2 (s.slot n).command.arg3, autoRestart := (s.slot n).command.arg1.getLsbD 16, index := 0
      restart := none, state := .active } := ⟨_, rfl⟩
  have vchannel : v.channel ch = { s.channel ch with
      table := addressOf (s.slot n).command.arg2 (s.slot n).command.arg3, autoRestart := (s.slot n).command.arg1.getLsbD 16, index := 0
      restart := none, state := .active } := by
    rw [hv, State.onChannel_channel_same]
    rfl
  have changes : (s.clearOutputs.takeCommand n).ChangesChannel ch (v.fetch ch) :=
    State.ChangesChannel.trans (t := v) (hv ▸ State.onChannel_changes _ _ _) (State.fetch_changes ch v)
  have channel : (v.fetch ch).channel ch = _ := State.fetch_channel ch v
  rw [vchannel] at channel
  have body : beginChannel 1 channelStartBody n (s.slot n).command (s.clearOutputs.takeCommand n) = (v.fetch ch).complete n .ok 1 :=
    (beginChannel_of_defined hch hop).trans ((channelStartBody_of_halted (s := s.clearOutputs.takeCommand n) good halted).trans (by rw [hv]))
  obtain ⟨runs, completes⟩ := beginning_completes_channel (row := hasChannelOp 1) ch ready hrow body changes.sparesCommands changes.others
    (by rw [changes.tru]; rfl)
  have idle : ((v.fetch ch).complete n .ok 1).canWrite ch = false :=
    State.canWrite_of_idle (.inr (by rw [State.complete_channel, channel]))
  rw [State.writeNext_of_not idle] at runs completes
  have request := State.fetch_placed ch v
  rw [Channel.fetchOf_of_first (by rw [vchannel]), vchannel] at request
  exact ⟨v.fetch ch, changes, channel, request, runs, completes⟩

/-- CHANNEL START of a channel that is ACTIVE or HELD (R141). -/
theorem exec_channelStart_busy {n : Fin 8} (ready : s.readyFor n) (hrow : hasChannelOp 1 (s.slot n).command = true)
    (hch : (s.slot n).command.arg1.toNat % 256 = ch.val) (hop : (s.slot n).command.arg1.toNat / 256 % 256 = 1)
    (good : ¬badTable (addressOf (s.slot n).command.arg2 (s.slot n).command.arg3) = true)
    (busy : (s.channel ch).state = .active ∨ (s.channel ch).state = .held) :
    ∃ w, (s.clearOutputs.takeCommand n).ChangesChannel ch w
      ∧ w.channel ch = { s.channel ch with
          restart := some (addressOf (s.slot n).command.arg2 (s.slot n).command.arg3, (s.slot n).command.arg1.getLsbD 16) }
      ∧ exec .channelStart s = .next (w.complete n .ok (BitVec.ofNat 32 (s.channel ch).state.code)).placeAll
      ∧ s.CompletesAs (w.complete n .ok (BitVec.ofNat 32 (s.channel ch).state.code)).placeAll n .ok
          (BitVec.ofNat 32 (s.channel ch).state.code) := by
  obtain ⟨w, hw⟩ : ∃ w, w = (s.clearOutputs.takeCommand n).onChannel ch fun x => { x with
      restart := some (addressOf (s.slot n).command.arg2 (s.slot n).command.arg3, (s.slot n).command.arg1.getLsbD 16) } := ⟨_, rfl⟩
  have changes : (s.clearOutputs.takeCommand n).ChangesChannel ch w := hw ▸ State.onChannel_changes _ _ _
  have channel : w.channel ch = { s.channel ch with
      restart := some (addressOf (s.slot n).command.arg2 (s.slot n).command.arg3, (s.slot n).command.arg1.getLsbD 16) } := by
    rw [hw, State.onChannel_channel_same]
    rfl
  have body : beginChannel 1 channelStartBody n (s.slot n).command (s.clearOutputs.takeCommand n) =
      w.complete n .ok (BitVec.ofNat 32 (s.channel ch).state.code) :=
    (beginChannel_of_defined hch hop).trans ((channelStartBody_of_busy (s := s.clearOutputs.takeCommand n) good busy).trans (by rw [hw]; rfl))
  obtain ⟨runs, completes⟩ := beginning_completes_channel (row := hasChannelOp 1) ch ready hrow body changes.sparesCommands changes.others
    (by rw [changes.tru]; rfl)
  have idle : (w.complete n .ok (BitVec.ofNat 32 (s.channel ch).state.code)).canWrite ch = false := by
    rw [State.canWrite, State.complete_channel, channel]
    exact State.canWrite_of_ready ready ch
  rw [State.writeNext_of_not idle] at runs completes
  exact ⟨w, changes, channel, runs, completes⟩

/-- Settles O49. -/
theorem channelStart : Obligations.ChannelStart := by
  intro s n ready code op k table bad
  have hrow : hasChannelOp 1 k = true := hasChannelOp_of code op
  have badIff : badTable table = true ↔ bad := badTable_iff table
  refine ⟨fun above => ?_, fun ch hch => ?_⟩
  · have undefined : ¬k.arg1.toNat % 256 < 3 := Nat.not_lt.mpr above
    obtain ⟨w, hw⟩ : ∃ w, w = (s.clearOutputs.takeCommand n).takeFree := ⟨_, rfl⟩
    obtain ⟨runs, completes⟩ := beginning_completes (row := hasChannelOp 1) (body := beginChannel 1 channelStartBody) (u := w) ready hrow
      ((dif_neg undefined).trans (by rw [hw])) (by rw [hw]; exact ⟨rfl, rfl, rfl, rfl, fun _ => id⟩) (by rw [hw]; rfl) (by rw [hw]; rfl)
    exact ⟨_, runs, completes, (State.complete_freeCount w n .badArg _).trans (by rw [hw]; rfl),
      (State.complete_rou w n .badArg _).trans (by rw [hw]; rfl)⟩
  · intro c
    have body : beginChannel 1 channelStartBody n k (s.clearOutputs.takeCommand n) = channelStartBody ch n k (s.clearOutputs.takeCommand n) :=
      beginChannel_of_defined hch op
    have refuses : ∀ {st : Status} {v : Word}, channelStartBody ch n k (s.clearOutputs.takeCommand n) =
        (s.clearOutputs.takeCommand n).complete n st v → ∃ t, exec .channelStart s = .next t ∧ s.CompletesAs t n st v
          ∧ t.lcu = { s.lcu with ltrig := false } ∧ t.fdu = s.fdu ∧ t.ppl = s.ppl ∧ t.cdu = s.cdu ∧ t.sac = s.sac ∧ t.rou = s.rou
          ∧ t.csu.inspection = s.csu.inspection := fun h => beginning_refuses (row := hasChannelOp 1) ready hrow (body.trans h)
    have fromRou : ∀ {t : State}, t.rou = s.rou → ∀ j, t.channel j = s.channel j := fun h j =>
      congrArg (fun r : Vector Channel 3 => r[j]) h
    by_cases hbad : bad
    · obtain ⟨t, runs, completes, lcu, fdu, ppl, cdu, sac, rou, -⟩ := refuses (channelStartBody_of_bad (badIff.mpr hbad))
      exact ⟨t, runs, fun _ => ⟨completes, rou⟩, fun h => absurd hbad h, fun h => absurd hbad h, fun h => absurd hbad h,
        fun j _ => fromRou rou j, lcu, fdu, ppl, cdu, sac⟩
    · have good := mt badIff.mp hbad
      have kinds : (c.state = .stopped ∨ c.state = .ended ∨ c.state = .fault) ∨ (c.state = .active ∨ c.state = .held)
          ∨ c.state = .paused := by
        cases c.state with
        | stopped => exact .inl (.inl rfl)
        | ended => exact .inl (.inr (.inl rfl))
        | fault => exact .inl (.inr (.inr rfl))
        | active => exact .inr (.inl (.inl rfl))
        | held => exact .inr (.inl (.inr rfl))
        | paused => exact .inr (.inr rfl)
      rcases kinds with halted | busy | paused
      · have notBusy : ¬(c.state = .active ∨ c.state = .held) := by
          rcases halted with h | h | h
          all_goals rw [h]; nofun
        have notPaused : c.state ≠ .paused := by
          rcases halted with h | h | h
          all_goals rw [h]; nofun
        obtain ⟨w, changes, channel, request, runs, completes⟩ := exec_channelStart_halted ready hrow hch op good halted
        obtain ⟨lcu, fdu, ppl, cdu, sac, -⟩ := w.complete_units n .ok 1
        refine ⟨_, runs, fun h => absurd h hbad, fun _ _ => ⟨completes, (State.complete_channel w n .ok 1 ch).trans channel, ?_⟩,
          fun _ h => absurd h notBusy, fun _ h => absurd h notPaused,
          fun j hj => (State.complete_channel w n .ok 1 j).trans (changes.others j hj), lcu.trans changes.lcu, fdu.trans changes.fdu,
          ppl.trans changes.ppl, cdu.trans changes.cdu, sac.trans changes.sac⟩
        exact State.placeAll_requests _ ((w.complete_adds n .ok 1).requests _ (List.mem_append_right _ request))
      · have notHalted : ¬(c.state = .stopped ∨ c.state = .ended ∨ c.state = .fault) := by
          rcases busy with h | h
          all_goals rw [h]; nofun
        have notPaused : c.state ≠ .paused := by
          rcases busy with h | h
          all_goals rw [h]; nofun
        obtain ⟨w, changes, channel, runs, completes⟩ := exec_channelStart_busy ready hrow hch op good busy
        obtain ⟨lcu, fdu, ppl, cdu, sac, -⟩ := w.complete_units n .ok (BitVec.ofNat 32 c.state.code)
        exact ⟨_, runs, fun h => absurd h hbad, fun _ h => absurd h notHalted,
          fun _ _ => ⟨completes, (State.complete_channel w n .ok _ ch).trans channel⟩, fun _ h => absurd h notPaused,
          fun j hj => (State.complete_channel w n .ok _ j).trans (changes.others j hj), lcu.trans changes.lcu, fdu.trans changes.fdu,
          ppl.trans changes.ppl, cdu.trans changes.cdu, sac.trans changes.sac⟩
      · have notHalted : ¬(c.state = .stopped ∨ c.state = .ended ∨ c.state = .fault) := by rw [paused]; nofun
        have notBusy : ¬(c.state = .active ∨ c.state = .held) := by rw [paused]; nofun
        obtain ⟨t, runs, completes, lcu, fdu, ppl, cdu, sac, rou, -⟩ := refuses (channelStartBody_of_paused good paused)
        exact ⟨t, runs, fun h => absurd h hbad, fun _ h => absurd h notHalted, fun _ h => absurd h notBusy, fun _ _ => ⟨completes, rou⟩,
          fun j _ => fromRou rou j, lcu, fdu, ppl, cdu, sac⟩

end Sys2Proof.Machine
end

section
/-! PROOFS. CHANNEL PAUSE, RESUME and TERMINATE, at once and at the end of the request in flight (O50). -/

namespace Sys2Proof.Machine

variable {s t u : State} {ch : Fin 3}

/-! ### Nothing to withdraw -/

theorem State.withdraw_of_none (h : ∀ r ∈ s.tru.waiting, r.purpose ≠ .descriptor ch ∧ r.purpose ≠ .record ch) : s.withdraw ch = s := by
  have none : s.tru.waiting.any (OwnRequest.mine ch) = false := List.any_eq_false.mpr fun r hr => by
    obtain ⟨hd, hw⟩ := h r hr
    simp [OwnRequest.mine, hd, hw]
  rw [State.withdraw_eq, none]
  rfl

theorem State.writeNext_channel (ch : Fin 3) (s : State) : ∃ a, (s.writeNext ch).channel ch = { s.channel ch with activity := a } := by
  unfold State.writeNext
  dsimp only
  split
  · split
    · exact ⟨.writing, State.onChannel_channel_same s ch fun c => { c with activity := .writing }⟩
    · exact ⟨(s.channel ch).activity, rfl⟩
  · exact ⟨(s.channel ch).activity, rfl⟩

/-! ### PAUSE, RESUME and TERMINATE begin -/

section
variable {n : Fin 8} {row : Command → Bool} {body : Fin 8 → Command → State → State}

/-- A CHANNEL command is refused (R161). -/
theorem beginning_refuses_channel {st : Status} {v : Word} (h : s.readyFor n) (hrow : row (s.slot n).command = true)
    (hbody : body n (s.slot n).command (s.clearOutputs.takeCommand n) = (s.clearOutputs.takeCommand n).complete n st v) :
    ∃ t, beginning row body s = .next t ∧ s.CompletesAs t n st v ∧ ∀ k, t.channel k = s.channel k := by
  obtain ⟨t, runs, completes, -, -, -, -, -, rou, -⟩ := beginning_refuses h hrow hbody
  exact ⟨t, runs, completes, fun k => congrArg (fun r : Vector Channel 3 => r[k]) rou⟩

/-- A CHANNEL command that changes its channel alone and completes (R161). -/
theorem beginning_changes_channel {st : Status} {v : Word} (h : s.readyFor n) (hrow : row (s.slot n).command = true)
    (hbody : body n (s.slot n).command (s.clearOutputs.takeCommand n) = u.complete n st v)
    (hu : (s.clearOutputs.takeCommand n).SparesCommands u) (others : ∀ k, k ≠ ch → u.channel k = s.channel k)
    (ht : u.tru.transit = s.tru.transit) :
    ∃ t, beginning row body s = .next t ∧ s.CompletesAs t n st v ∧ (∃ a, t.channel ch = { u.channel ch with activity := a })
      ∧ (u.canWrite ch = false → t.channel ch = u.channel ch) ∧ (∀ k, k ≠ ch → t.channel k = s.channel k) ∧ t.sac = u.sac := by
  obtain ⟨runs, completes⟩ := beginning_completes_channel ch h hrow hbody hu others ht
  have changes := State.writeNext_changes ch (u.complete n st v)
  obtain ⟨a, ha⟩ := State.writeNext_channel ch (u.complete n st v)
  refine ⟨_, runs, completes, ⟨a, ha.trans (by rw [State.complete_channel])⟩, fun idle => ?_, fun k hk => ?_,
    changes.sac.trans (State.complete_sac u n st v)⟩
  · have still : (u.complete n st v).canWrite ch = false := by
      rw [State.canWrite, State.complete_channel]
      exact idle
    rw [State.writeNext_of_not still]
    exact State.complete_channel u n st v ch
  · exact (changes.others k hk).trans ((State.complete_channel u n st v k).trans (others k hk))

/-- A CHANNEL command that waits for the request in flight (R147, R148). -/
theorem beginning_pends {op : PendingOp} (h : s.readyFor n) (hrow : row (s.slot n).command = true)
    (hbody : body n (s.slot n).command (s.clearOutputs.takeCommand n) =
      ((s.clearOutputs.takeCommand n).onChannel ch fun c => { c with pendingOp := op }).runs n (.channelOp ch)) (hop : op ≠ .none) :
    ∃ t, beginning row body s = .next t ∧ s.RunsIn t n (.channelOp ch) ∧ t.channel ch = { s.channel ch with pendingOp := op }
      ∧ ∀ k, k ≠ ch → t.channel k = s.channel k := by
  obtain ⟨w, hw⟩ : ∃ w, w = ((s.clearOutputs.takeCommand n).onChannel ch fun c => { c with pendingOp := op }).runs n (.channelOp ch) :=
    ⟨_, rfl⟩
  have channel : w.channel ch = { s.channel ch with pendingOp := op } := by
    rw [hw]
    exact State.onChannel_channel_same (s.clearOutputs.takeCommand n) ch fun c => { c with pendingOp := op }
  have others : ∀ k, k ≠ ch → w.channel k = s.channel k := fun k hk => by
    rw [hw]
    exact State.onChannel_channel_ne (s.clearOutputs.takeCommand n) (fun c => { c with pendingOp := op }) hk
  obtain ⟨runs, phase⟩ := beginning_runs_channel ch (p := .channelOp ch) h hrow rfl (hbody.trans hw.symm)
    (by rw [hw]; exact ⟨rfl, rfl, rfl, rfl, fun _ => id⟩) others (by rw [hw]; rfl)
  have blocked : w.canWrite ch = false :=
    State.canWrite_of_blocked (.inr (.inr (.inr (.inl (by rw [channel]; exact hop)))))
  rw [State.writeNext_of_not blocked] at runs phase
  exact ⟨_, runs, phase, channel, others⟩

end

section
variable {n : Fin 8} {c : Command}

theorem channelPauseBody_of_idle (hs : (s.channel ch).state = .active) (ha : (s.channel ch).activity = .none) (hw : s.withdraw ch = s) :
    channelPauseBody ch n c s = (s.onChannel ch fun c => { c with state := .paused }).complete n .ok 3 := by
  refine (if_pos hs).trans ?_
  dsimp only
  rw [hw, if_pos ha, State.channelValue, State.onChannel_channel_same]
  rfl

theorem channelPauseBody_of_busy (hs : (s.channel ch).state = .active) (ha : (s.channel ch).activity ≠ .none) (hw : s.withdraw ch = s) :
    channelPauseBody ch n c s = (s.onChannel ch fun c => { c with pendingOp := .pause }).runs n (.channelOp ch) := by
  refine (if_pos hs).trans ?_
  dsimp only
  rw [hw, if_neg ha]

/-- The channel that RESUME has made ACTIVE; with no entry it fetches (R147). -/
def State.resumed (ch : Fin 3) (s : State) : State :=
  if (s.channel ch).entry.isNone then (s.onChannel ch fun c => { c with state := .active }).fetch ch
  else s.onChannel ch fun c => { c with state := .active }

theorem channelResumeBody_of_paused (hs : (s.channel ch).state = .paused) :
    channelResumeBody ch n c s = (s.resumed ch).complete n .ok 1 := by
  have value : (s.resumed ch).channelValue ch = 1 := by
    unfold State.channelValue State.resumed
    split
    · rw [State.fetch_channel, State.onChannel_channel_same]
      rfl
    · rw [State.onChannel_channel_same]
      rfl
  have resumes : (if ((s.onChannel ch fun c => { c with state := .active }).channel ch).entry.isNone
      then (s.onChannel ch fun c => { c with state := .active }).fetch ch else s.onChannel ch fun c => { c with state := .active }) =
        s.resumed ch := by
    rw [State.onChannel_channel_same]
    rfl
  refine (if_pos hs).trans ?_
  dsimp only
  rw [resumes, value]

theorem channelTerminateBody_of_idle (ha : (s.channel ch).activity = .none) (hw : s.withdraw ch = s) :
    channelTerminateBody ch n c s = (s.terminate ch).complete n .ok 0 := by
  have value : (s.terminate ch).channelValue ch = 0 := by
    rw [State.channelValue, State.terminate, State.onChannel_channel_same]
    rfl
  unfold channelTerminateBody
  dsimp only
  rw [hw, if_pos ha, value]

theorem channelTerminateBody_of_busy (ha : (s.channel ch).activity ≠ .none) (hw : s.withdraw ch = s) :
    channelTerminateBody ch n c s = (s.onChannel ch fun c => { c with pendingOp := .terminate }).runs n (.channelOp ch) := by
  unfold channelTerminateBody
  dsimp only
  rw [hw, if_neg ha]

end

theorem State.terminate_channel (ch : Fin 3) (s : State) : (s.terminate ch).channel ch = (s.channel ch).terminated := by
  rw [State.terminate_eq]
  exact State.onChannel_channel_same s ch Channel.terminated

theorem State.terminate_channel_ne {k : Fin 3} (h : k ≠ ch) (s : State) : (s.terminate ch).channel k = s.channel k := by
  rw [State.terminate_eq]
  exact State.onChannel_channel_ne s Channel.terminated h

/-- Terminating changes its channel and the count of dropped records alone (R148). -/
theorem State.terminate_sparesCommands (ch : Fin 3) (s : State) : s.SparesCommands (s.terminate ch) := by
  rw [State.terminate_eq]
  exact ⟨rfl, rfl, rfl, rfl, fun _ => id⟩

theorem State.terminate_dropped (ch : Fin 3) (s : State) : (s.terminate ch).sac.counters.recordsDropped[ch] =
    satAdd max32 s.sac.counters.recordsDropped[ch] (s.channel ch).queue.length := by
  rw [State.terminate_eq]
  exact Vector.getElem_set_self _

theorem State.resumed_changes (ch : Fin 3) (s : State) : s.ChangesChannel ch (s.resumed ch) := by
  unfold State.resumed
  split
  · exact (State.onChannel_changes _ _ s).trans (State.fetch_changes _ _)
  · exact State.onChannel_changes _ _ s

section
variable {n : Fin 8}

/-- CHANNEL PAUSE on a channel that waits to place nothing (R147). -/
theorem exec_channelPause (h : s.readyFor n) (hc : (s.slot n).command.code = 0x30) (hch : (s.slot n).command.arg1.toNat % 256 = ch.val)
    (hop : (s.slot n).command.arg1.toNat / 256 % 256 = 2)
    (hw : ∀ r ∈ s.tru.waiting, r.purpose ≠ .descriptor ch ∧ r.purpose ≠ .record ch) :
    ∃ t, exec .channelPause s = .next t
      ∧ ((s.channel ch).state = .active → (s.channel ch).activity = .none →
          s.CompletesAs t n .ok 3 ∧ t.channel ch = { s.channel ch with state := .paused })
      ∧ ((s.channel ch).state = .active → (s.channel ch).activity ≠ .none →
          s.RunsIn t n (.channelOp ch) ∧ t.channel ch = { s.channel ch with pendingOp := .pause })
      ∧ ((s.channel ch).state ≠ .active →
          s.CompletesAs t n .badState (BitVec.ofNat 32 (s.channel ch).state.code) ∧ t.channel ch = s.channel ch)
      ∧ ∀ k, k ≠ ch → t.channel k = s.channel k := by
  have hrow := hasChannelOp_of hc hop
  have still : (s.clearOutputs.takeCommand n).withdraw ch = s.clearOutputs.takeCommand n := State.withdraw_of_none hw
  have body : beginChannel 2 channelPauseBody n (s.slot n).command (s.clearOutputs.takeCommand n) =
      channelPauseBody ch n (s.slot n).command (s.clearOutputs.takeCommand n) := beginChannel_of_defined hch hop
  by_cases active : (s.channel ch).state = .active
  · by_cases idle : (s.channel ch).activity = .none
    · obtain ⟨w, hv⟩ : ∃ w, w = (s.clearOutputs.takeCommand n).onChannel ch fun c => { c with state := .paused } := ⟨_, rfl⟩
      have changes : (s.clearOutputs.takeCommand n).ChangesChannel ch w := hv ▸ State.onChannel_changes _ _ _
      have channel : w.channel ch = { s.channel ch with state := .paused } := by
        rw [hv]
        exact State.onChannel_channel_same (s.clearOutputs.takeCommand n) ch fun c => { c with state := .paused }
      have pauses := channelPauseBody_of_idle (s := s.clearOutputs.takeCommand n) (n := n) (c := (s.slot n).command) active idle still
      obtain ⟨t, runs, completes, -, same, others, -⟩ := beginning_changes_channel (row := hasChannelOp 2) (u := w) h hrow
        (body.trans (pauses.trans (by rw [hv]))) changes.sparesCommands changes.others (by rw [changes.tru]; rfl)
      have blocked : w.canWrite ch = false := State.canWrite_of_idle (.inl (by rw [channel]; nofun))
      exact ⟨t, runs, fun _ _ => ⟨completes, (same blocked).trans channel⟩, fun _ h => absurd idle h, fun h => absurd active h, others⟩
    · have waits := channelPauseBody_of_busy (s := s.clearOutputs.takeCommand n) (n := n) (c := (s.slot n).command) active idle still
      obtain ⟨t, runs, phase, channel, others⟩ := beginning_pends (row := hasChannelOp 2) h hrow (body.trans waits)
        (fun pause => PendingOp.noConfusion pause)
      exact ⟨t, runs, fun _ h => absurd h idle, fun _ _ => ⟨phase, channel⟩, fun h => absurd active h, others⟩
  · obtain ⟨t, runs, completes, same⟩ := beginning_refuses_channel (row := hasChannelOp 2) (body := beginChannel 2 channelPauseBody) h hrow
      (body.trans (if_neg active))
    exact ⟨t, runs, fun h => absurd h active, fun h => absurd h active, fun _ => ⟨completes, same ch⟩, fun k _ => same k⟩

/-- CHANNEL RESUME (R147). -/
theorem exec_channelResume (h : s.readyFor n) (hc : (s.slot n).command.code = 0x30) (hch : (s.slot n).command.arg1.toNat % 256 = ch.val)
    (hop : (s.slot n).command.arg1.toNat / 256 % 256 = 3) :
    ∃ t, exec .channelResume s = .next t
      ∧ ((s.channel ch).state = .paused → s.CompletesAs t n .ok 1 ∧ (t.channel ch).state = .active
          ∧ (t.channel ch).queue = (s.channel ch).queue ∧ (t.channel ch).index = (s.channel ch).index
          ∧ ((s.channel ch).entry = none → (t.channel ch).activity = .fetching))
      ∧ ((s.channel ch).state ≠ .paused →
          s.CompletesAs t n .badState (BitVec.ofNat 32 (s.channel ch).state.code) ∧ t.channel ch = s.channel ch)
      ∧ ∀ k, k ≠ ch → t.channel k = s.channel k := by
  have hrow := hasChannelOp_of hc hop
  have body : beginChannel 3 channelResumeBody n (s.slot n).command (s.clearOutputs.takeCommand n) =
      channelResumeBody ch n (s.slot n).command (s.clearOutputs.takeCommand n) := beginChannel_of_defined hch hop
  by_cases paused : (s.channel ch).state = .paused
  · obtain ⟨w, hv⟩ : ∃ w, w = (s.clearOutputs.takeCommand n).resumed ch := ⟨_, rfl⟩
    have changes : (s.clearOutputs.takeCommand n).ChangesChannel ch w := hv ▸ State.resumed_changes _ _
    have channel : w.channel ch = if (s.channel ch).entry.isNone then
          { s.channel ch with state := .active, activity := .fetching, entry := none, remaining := 0 }
        else { s.channel ch with state := .active } := by
      have made := State.onChannel_channel_same (s.clearOutputs.takeCommand n) ch fun c => { c with state := .active }
      rw [hv, State.resumed]
      refine (apply_ite (fun u : State => u.channel ch) _ _ _).trans (ite_congr rfl (fun _ => ?_) fun _ => made)
      rw [State.fetch_channel, made]
      rfl
    have resumes := channelResumeBody_of_paused (s := s.clearOutputs.takeCommand n) (n := n) (c := (s.slot n).command) paused
    obtain ⟨t, runs, completes, ⟨a, ha⟩, same, others, -⟩ := beginning_changes_channel (row := hasChannelOp 3) (u := w) h hrow
      (body.trans (resumes.trans (by rw [hv]))) changes.sparesCommands changes.others (by rw [changes.tru]; rfl)
    refine ⟨t, runs, fun _ => ⟨completes, ?_, ?_, ?_, fun none => ?_⟩, fun h => absurd paused h, others⟩
    · rw [ha, channel]
      split <;> rfl
    · rw [ha, channel]
      split <;> rfl
    · rw [ha, channel]
      split <;> rfl
    · rw [none, Option.isNone_none, if_pos rfl] at channel
      rw [same (State.canWrite_of_idle (.inr (by rw [channel]))), channel]
  · obtain ⟨t, runs, completes, same⟩ := beginning_refuses_channel (row := hasChannelOp 3) (body := beginChannel 3 channelResumeBody) h hrow
      (body.trans (if_neg paused))
    exact ⟨t, runs, fun h => absurd h paused, fun _ => ⟨completes, same ch⟩, fun k _ => same k⟩

/-- CHANNEL TERMINATE on a channel that waits to place nothing (R148). -/
theorem exec_channelTerminate (h : s.readyFor n) (hc : (s.slot n).command.code = 0x30)
    (hch : (s.slot n).command.arg1.toNat % 256 = ch.val) (hop : (s.slot n).command.arg1.toNat / 256 % 256 = 4)
    (hw : ∀ r ∈ s.tru.waiting, r.purpose ≠ .descriptor ch ∧ r.purpose ≠ .record ch) :
    ∃ t, exec .channelTerminate s = .next t
      ∧ ((s.channel ch).activity = .none → s.CompletesAs t n .ok 0 ∧ t.channel ch = (s.channel ch).terminated
          ∧ t.sac.counters.recordsDropped[ch] = satAdd max32 s.sac.counters.recordsDropped[ch] (s.channel ch).queue.length)
      ∧ ((s.channel ch).activity ≠ .none →
          s.RunsIn t n (.channelOp ch) ∧ t.channel ch = { s.channel ch with pendingOp := .terminate })
      ∧ ∀ k, k ≠ ch → t.channel k = s.channel k := by
  have hrow := hasChannelOp_of hc hop
  have still : (s.clearOutputs.takeCommand n).withdraw ch = s.clearOutputs.takeCommand n := State.withdraw_of_none hw
  have body : beginChannel 4 channelTerminateBody n (s.slot n).command (s.clearOutputs.takeCommand n) =
      channelTerminateBody ch n (s.slot n).command (s.clearOutputs.takeCommand n) := beginChannel_of_defined hch hop
  by_cases idle : (s.channel ch).activity = .none
  · obtain ⟨w, hv⟩ : ∃ w, w = (s.clearOutputs.takeCommand n).terminate ch := ⟨_, rfl⟩
    have channel : w.channel ch = (s.channel ch).terminated := hv ▸ State.terminate_channel ch (s.clearOutputs.takeCommand n)
    have dropped : w.sac.counters.recordsDropped[ch] = satAdd max32 s.sac.counters.recordsDropped[ch] (s.channel ch).queue.length :=
      hv ▸ State.terminate_dropped ch (s.clearOutputs.takeCommand n)
    have ends := channelTerminateBody_of_idle (s := s.clearOutputs.takeCommand n) (n := n) (c := (s.slot n).command) idle still
    obtain ⟨t, runs, completes, -, same, others, sac⟩ := beginning_changes_channel (row := hasChannelOp 4) (u := w) h hrow
      (body.trans (ends.trans (by rw [hv]))) (hv ▸ State.terminate_sparesCommands _ _)
      (fun k hk => hv ▸ State.terminate_channel_ne hk (s.clearOutputs.takeCommand n)) (by rw [hv, State.terminate_eq]; rfl)
    have blocked : w.canWrite ch = false := State.canWrite_of_idle (.inl (by rw [channel]; nofun))
    exact ⟨t, runs, fun _ => ⟨completes, (same blocked).trans channel, by rw [sac]; exact dropped⟩, fun h => absurd idle h, others⟩
  · have waits := channelTerminateBody_of_busy (s := s.clearOutputs.takeCommand n) (n := n) (c := (s.slot n).command) idle still
    obtain ⟨t, runs, phase, channel, others⟩ := beginning_pends (row := hasChannelOp 4) h hrow (body.trans waits)
      (fun terminate => PendingOp.noConfusion terminate)
    exact ⟨t, runs, fun h => absurd h idle, fun _ => ⟨phase, channel⟩, others⟩

end

end Sys2Proof.Machine
end

section
/-! PROOFS. A pending PAUSE or TERMINATE takes effect at the end of the request in flight (O50). -/

namespace Sys2Proof.Machine

variable {s t u b : State} {ch : Fin 3} {n : Fin 8}

/-! ### The running command ends -/

/-- The one running command completes when what came before has spared the commands (R160). -/
theorem State.endsAs {st : Status} {v : Word} {p : Phase} (hrun : s.csu.running = [{ slot := n, phase := p }]) (hu : s.SparesCommands u) :
    s.EndsAs (u.complete n st v).finish n st v := by
  have after : (u.complete n st v).csu.running = [] := by
    rw [State.complete_running, hu.running, hrun]
    simp
  have csu := State.finish_csu (no_load_of_idle after)
  have slotOf : ∀ k, u.slot k = s.slot k := fun k => congrArg (fun v : Vector Slot 8 => v[k]) hu.slots
  have slots : ∀ k, (u.complete n st v).finish.slot k = (u.complete n st v).slot k := fun k => congrArg (fun c : Csu => c.slots[k]) csu
  refine ⟨?_, ?_, fun k hk => ?_, ?_, ?_, ?_⟩
  · rw [csu, State.complete_csu_fifo, hu.fifo]
  · rw [slots, State.complete_slot_same, slotOf]
  · rw [slots, State.complete_slot_ne u st v hk, slotOf]
  · rw [csu, after]
  · rw [csu, State.complete_causes, BitVec.getLsbD_or, show (1#32).getLsbD 0 = true from rfl, Bool.or_true]
  · have request : u.resultRequest n st v = s.resultRequest n st v := by
      simp only [State.resultRequest, slotOf, hu.controlBase]
    obtain ⟨l, placing⟩ := State.complete_placing n st v u
    refine State.finish_requests ?_
    rw [placing, request]
    exact List.mem_append_right _ List.mem_cons_self

/-- The running command of a channel that writes nothing now completes: the close of the event. -/
theorem State.AtRest.endsAs {st : Status} {v : Word} {p : Phase} (h : b.AtRest) (hrun : b.csu.running = [{ slot := n, phase := p }])
    (hu : b.SparesCommands u) (others : ∀ k, k ≠ ch → u.channel k = b.channel k) (transit : u.tru.transit = b.tru.transit)
    (blocked : u.canWrite ch = false) :
    (u.complete n st v).finish = (u.complete n st v).placeAll ∧ b.EndsAs (u.complete n st v).placeAll n st v := by
  have idle : (u.complete n st v).csu.running = [] := by
    rw [State.complete_running, hu.running, hrun]
    simp
  have still : (u.complete n st v).canWrite ch = false := by
    rw [State.canWrite, State.complete_channel]
    exact blocked
  have ends : (u.complete n st v).finish = (u.complete n st v).placeAll := by
    rw [h.finish_of_others (State.noLoadDone_of_no_load (no_load_of_idle idle))
      (fun k hk => (State.complete_channel u n st v k).trans (others k hk)) ((State.complete_tru_transit u n st v).trans transit),
      State.writeNext_of_not still]
  exact ⟨ends, ends ▸ State.endsAs hrun hu⟩

theorem State.runningWith_isChannelOp (h : s.csu.running = [{ slot := n, phase := .channelOp ch }]) :
    s.runningWith (isChannelOp ch) = some n := by
  simp [State.runningWith, h, isChannelOp]

/-! ### The pending operation -/

/-- What a pending PAUSE makes of a channel (R147). -/
def Channel.halted (c : Channel) : Channel := { c with state := if c.state = .active then .paused else c.state, pendingOp := .none }

theorem State.settlePending_of_pause (hp : (s.channel ch).pendingOp = .pause)
    (hrun : s.csu.running = [{ slot := n, phase := .channelOp ch }]) : s.settlePending ch =
    (s.onChannel ch Channel.halted).complete n .ok (BitVec.ofNat 32 (s.channel ch).halted.state.code) := by
  have value : (s.onChannel ch Channel.halted).channelValue ch = BitVec.ofNat 32 (s.channel ch).halted.state.code := by
    rw [State.channelValue, State.onChannel_channel_same]
  rw [← value]
  unfold State.settlePending
  rw [hp]
  exact State.completeWith_of_running (s := s.onChannel ch Channel.halted) (State.runningWith_isChannelOp hrun) _

theorem State.settlePending_of_terminate (hp : (s.channel ch).pendingOp = .terminate)
    (hrun : s.csu.running = [{ slot := n, phase := .channelOp ch }]) : s.settlePending ch = (s.terminate ch).complete n .ok 0 := by
  have value : (s.terminate ch).channelValue ch = 0 := by
    rw [State.channelValue, State.terminate_channel]
    rfl
  have running : (s.terminate ch).csu.running = [{ slot := n, phase := .channelOp ch }] := by rw [State.terminate_eq]; exact hrun
  rw [← value]
  unfold State.settlePending
  rw [hp]
  exact State.completeWith_of_running (State.runningWith_isChannelOp running) _

theorem Channel.halted_state_ne (c : Channel) : c.halted.state ≠ .active := by
  unfold Channel.halted
  dsimp only
  split
  · nofun
  · next h => exact h

/-- A pending PAUSE takes effect after the rule of the request in flight (R147). -/
theorem State.AtRest.settlePending_of_pause (h : b.AtRest) (hrun : b.csu.running = [{ slot := n, phase := .channelOp ch }])
    (hu : b.ChangesChannel ch u) (hp : (u.channel ch).pendingOp = .pause) :
    ∃ t, (u.settlePending ch).finish = t ∧ b.EndsAs t n .ok (BitVec.ofNat 32 (u.channel ch).halted.state.code)
      ∧ t.channel ch = (u.channel ch).halted ∧ t.tru.flight = b.tru.flight ∧ (∀ k, k ≠ ch → t.channel k = b.channel k)
      ∧ ∀ i, u.csu.causes.getLsbD i = true → t.csu.causes.getLsbD i = true := by
  obtain ⟨w, hw⟩ : ∃ w, w = u.onChannel ch Channel.halted := ⟨_, rfl⟩
  have changes : b.ChangesChannel ch w := hw ▸ hu.trans (State.onChannel_changes _ _ _)
  have channel : w.channel ch = (u.channel ch).halted := by rw [hw, State.onChannel_channel_same]
  obtain ⟨ends, endsAs⟩ := h.endsAs (st := .ok) (v := BitVec.ofNat 32 (u.channel ch).halted.state.code) hrun changes.sparesCommands
    changes.others (by rw [changes.tru]) (State.canWrite_of_idle (.inl (by rw [channel]; exact Channel.halted_state_ne _)))
  have settles := State.settlePending_of_pause (s := u) hp (by rw [hu.csu]; exact hrun)
  rw [settles, ← hw, ends]
  refine ⟨_, rfl, endsAs, (State.complete_channel w n _ _ ch).trans channel, ?_,
    fun k hk => (State.complete_channel w n _ _ k).trans (changes.others k hk), fun i hi => ?_⟩
  · exact (State.complete_tru_flight w n _ _).trans (by rw [changes.tru])
  · exact (w.complete_adds n _ _).causes i (by rw [hw]; exact hi)

/-- A pending TERMINATE takes effect at the end of the request in flight (R148). -/
theorem State.AtRest.settlePending_of_terminate (h : b.AtRest) (hrun : b.csu.running = [{ slot := n, phase := .channelOp ch }])
    (f : Channel → Channel) (hp : (f (b.channel ch)).pendingOp = .terminate) :
    ∃ t, ((b.onChannel ch f).settlePending ch).finish = t ∧ b.EndsAs t n .ok 0 ∧ t.channel ch = (f (b.channel ch)).terminated
      ∧ t.csu.causes = b.csu.causes ||| 1#32
      ∧ t.sac.counters.recordsDropped[ch] = satAdd max32 b.sac.counters.recordsDropped[ch] (f (b.channel ch)).queue.length
      ∧ t.tru.flight = b.tru.flight ∧ ∀ k, k ≠ ch → t.channel k = b.channel k := by
  obtain ⟨u, hu⟩ : ∃ u, u = b.onChannel ch f := ⟨_, rfl⟩
  have same : u.channel ch = f (b.channel ch) := by rw [hu, State.onChannel_channel_same]
  obtain ⟨w, hw⟩ : ∃ w, w = u.terminate ch := ⟨_, rfl⟩
  have channel : w.channel ch = (f (b.channel ch)).terminated := by rw [hw, State.terminate_channel, same]
  have others : ∀ k, k ≠ ch → w.channel k = b.channel k := fun k hk => by
    rw [hw, State.terminate_channel_ne hk, hu]
    exact State.onChannel_channel_ne b f hk
  have spares : b.SparesCommands w := by
    rw [hw, hu, State.terminate_eq]
    exact ⟨rfl, rfl, rfl, rfl, fun _ => id⟩
  have rest : w.tru = b.tru ∧ w.csu = b.csu := by
    rw [hw, hu, State.terminate_eq]
    exact ⟨rfl, rfl⟩
  obtain ⟨ends, endsAs⟩ := h.endsAs (st := .ok) (v := 0) hrun spares others (by rw [rest.1])
    (State.canWrite_of_idle (.inl (by rw [channel]; nofun)))
  have settles := State.settlePending_of_terminate (s := u) (by rw [same]; exact hp) (by rw [hu]; exact hrun)
  rw [← hu, settles, ← hw, ends]
  refine ⟨_, rfl, endsAs, (State.complete_channel w n _ _ ch).trans channel, ?_, ?_,
    (State.complete_tru_flight w n _ _).trans (by rw [rest.1]), fun k hk => (State.complete_channel w n _ _ k).trans (others k hk)⟩
  · rw [State.placeAll_csu, State.complete_causes, rest.2]
  · rw [State.placeAll_sac, State.complete_sac, hw, State.terminate_dropped, same, hu]
    rfl

theorem State.EndsAs.of_answeredTo {flight : List InFlight} {st : Status} {v : Word} (h : (s.answeredTo flight).EndsAs t n st v) :
    s.EndsAs t n st v :=
  ⟨h.fifo, h.slot, h.others, h.running, h.done, h.result⟩

/-! ### Moving on while a PAUSE is pending -/

section
variable {c : Channel}

theorem Channel.refetched_of_pending (hp : c.pendingOp ≠ .none) : c.refetched = { c with entry := none, remaining := 0 } := by
  rw [Channel.refetched, if_neg hp]

theorem Channel.movedOn_of_next_pending (h : c.atEnd = false) (hp : c.pendingOp ≠ .none) : c.movedOn =
    { c with index := c.index + 1, state := .active, entry := none, remaining := 0 } := by
  rw [Channel.movedOn, h, if_neg Bool.false_ne_true]
  exact Channel.refetched_of_pending hp

theorem Channel.movedOn_of_restart_pending {table : Nat} {auto : Bool} (h : c.atEnd = true) (hr : c.restart = some (table, auto))
    (hp : c.pendingOp ≠ .none) : c.movedOn =
    { c with
      table := table, autoRestart := auto, restart := none, index := 0, state := .active, entry := none, remaining := 0 } := by
  have restarted : c.restarted = { c with table := table, autoRestart := auto, restart := none, index := 0, state := .active } := by
    rw [Channel.restarted, hr]
  rw [Channel.movedOn, h, if_pos rfl, if_pos (by rw [hr]; rfl), restarted]
  exact Channel.refetched_of_pending hp

theorem Channel.movedOn_of_auto_pending (h : c.atEnd = true) (hr : c.restart = none) (ha : c.autoRestart = true)
    (hp : c.pendingOp ≠ .none) : c.movedOn = { c with index := 0, state := .active, entry := none, remaining := 0 } := by
  have restarted : c.restarted = { c with index := 0, state := .active } := by
    rw [Channel.restarted, hr]
  rw [Channel.movedOn, h, if_pos rfl, if_pos (by rw [hr, ha]; rfl), restarted]
  exact Channel.refetched_of_pending hp

theorem Channel.halted_of_active (h : c.state = .active) : c.halted = { c with state := .paused, pendingOp := .none } := by
  rw [Channel.halted, if_pos h]

theorem Channel.halted_of_not_active (h : c.state ≠ .active) : c.halted = { c with pendingOp := .none } := by
  rw [Channel.halted, if_neg h]

end

/-! ### The returns -/

/-- Nothing pending: the return of a request leaves the other channels and the requests in flight alone. -/
theorem State.AtRest.finish_frame (h : b.AtRest) (hu : b.ChangesChannel ch u) :
    u.finish.tru.flight = b.tru.flight ∧ ∀ k, k ≠ ch → u.finish.channel k = b.channel k := by
  have after := hu.trans (State.writeNext_changes ch u)
  rw [h.finish_of_channel hu]
  exact ⟨by rw [State.placeAll_tru_flight, after.tru], fun k hk => after.others k hk⟩

/-- A record write under a pending TERMINATE counts its record and nothing else (R148). -/
theorem State.recordWritten_of_terminate (h : (s.channel ch).pendingOp = .terminate) :
    s.recordWritten ch = (s.onChannel ch Channel.afterWrite).settlePending ch := by
  refine congrArg (State.settlePending ch) (if_neg fun ends => ends.2 ?_)
  exact h

/-- A descriptor under a pending TERMINATE is not judged (R148). -/
theorem State.descriptorReturn_of_terminate (beat : List Byte) (h : (s.channel ch).pendingOp = .terminate) :
    s.descriptorReturn ch beat = (s.onChannel ch fun c => { c with activity := .none }).settlePending ch :=
  congrArg (State.settlePending ch) (if_pos h)

/-- The completion of a record write on a channel with a pending PAUSE (R144, R145, R147). -/
theorem exec_recordWritten_pause {r : OwnRequest} {flight : List InFlight} (hq : s.quiet = true) (hf : s.tru.flight = .own r :: flight)
    (hrun : s.csu.running = [{ slot := n, phase := .channelOp ch }]) (hpurpose : r.purpose = .record ch) (hkind : r.kind = .write)
    (hp : (s.channel ch).pendingOp = .pause) :
    ∃ t, exec .ownWriteCompletion s = .next t
      ∧ s.EndsAs t n .ok (BitVec.ofNat 32 (((s.answeredTo flight).recordTaken ch).channel ch).halted.state.code)
      ∧ t.channel ch = (((s.answeredTo flight).recordTaken ch).channel ch).halted ∧ t.tru.flight = flight
      ∧ (∀ k, k ≠ ch → t.channel k = s.channel k)
      ∧ ∀ i, ((s.answeredTo flight).recordTaken ch).csu.causes.getLsbD i = true → t.csu.causes.getLsbD i = true := by
  obtain ⟨settled, closed⟩ := State.quiet_iff.mp hq
  have atRest := State.atRest_answeredTo flight closed
  have pending : (((s.answeredTo flight).recordTaken ch).channel ch).pendingOp = .pause := by
    rw [State.recordTaken_channel]
    split
    · exact (Channel.filled_pendingOp _ _).trans hp
    · exact hp
  obtain ⟨t, ends, endsAs, channel, flies, others, causes⟩ :=
    atRest.settlePending_of_pause hrun (State.recordTaken_changes ch (s.answeredTo flight)) pending
  have completed : State.ownWriteCompleted r.purpose (s.answeredTo flight) = ((s.answeredTo flight).recordTaken ch).settlePending ch := by
    rw [hpurpose]
    exact State.recordWritten_eq (fun h => nomatch hp.symm.trans h)
  exact ⟨t, by rw [exec_ownWriteCompletion settled hf hkind, completed, ends], endsAs.of_answeredTo, channel, flies, others, causes⟩

end Sys2Proof.Machine
end

section
/-! PROOFS. CHANNEL PAUSE, RESUME and TERMINATE (O50), assembled. -/

namespace Sys2Proof.Machine

variable {s t : State} {ch : Fin 3} {n : Fin 8}

/-- The channel after a completed record write whose head was `q` (R144). -/
theorem Channel.afterWrite_of_queue {c : Channel} {q : Record} {rest : List Record} (h : c.queue = q :: rest) : c.afterWrite =
    { c with queue := rest, written := c.written + 1, remaining := c.remaining - 1, activity := .none } := by
  rw [Channel.afterWrite, h, List.tail_cons]

/-- A pending PAUSE at the completion of the last record of an entry (R145, R147). -/
theorem pause_at_last {r : OwnRequest} {flight : List InFlight} {rest : List Record} {q : Record} {d : Descriptor} (hq : s.quiet = true)
    (hf : s.tru.flight = .own r :: flight) (hrun : s.csu.running = [{ slot := n, phase := .channelOp ch }])
    (hpurpose : r.purpose = .record ch) (hkind : r.kind = .write) (hp : (s.channel ch).pendingOp = .pause)
    (hqueue : (s.channel ch).queue = q :: rest) (hentry : (s.channel ch).entry = some d)
    (hone : (s.channel ch).remaining = 1) :
    let c := s.channel ch
    let written := { c with queue := rest, written := c.written + 1, remaining := c.remaining - 1, activity := .none, pendingOp := .none }
    let atStop := c.index = (s.stopWord ch).toNat % 256
    ∃ t, exec .ownWriteCompletion s = .next t ∧ t.tru.flight = flight ∧ (∀ k, k ≠ ch → t.channel k = s.channel k)
      ∧ (d.flag = true → t.csu.causes.getLsbD (2 + ch.val) = true)
      ∧ (atStop → s.EndsAs t n .ok 2 ∧ t.channel ch = { written with state := .held } ∧ t.csu.causes.getLsbD (5 + ch.val) = true)
      ∧ (¬atStop → d.eol = false → c.index ≠ 255 →
          s.EndsAs t n .ok 3 ∧ t.channel ch = { written with state := .paused, entry := none, index := c.index + 1 })
      ∧ (¬atStop → d.eol = true ∨ c.index = 255 → t.csu.causes.getLsbD (8 + ch.val) = true
        ∧ (∀ table auto, c.restart = some (table, auto) → s.EndsAs t n .ok 3
            ∧ t.channel ch = { written with
                  state := .paused, entry := none, index := 0, table := table, autoRestart := auto, restart := none })
        ∧ (c.restart = none → c.autoRestart = true →
            s.EndsAs t n .ok 3 ∧ t.channel ch = { written with state := .paused, entry := none, index := 0 })
        ∧ (c.restart = none → c.autoRestart = false → s.EndsAs t n .ok 4 ∧ t.channel ch = { written with state := .ended })) := by
  intro c written atStop
  obtain ⟨t, runs, endsAs, channel, flies, others, causes⟩ := exec_recordWritten_pause hq hf hrun hpurpose hkind hp
  have last : c.afterWrite.remaining = 0 := by
    rw [Channel.afterWrite, show c.remaining = 1 from hone]
  have wrote : c.afterWrite = { c with queue := rest, written := c.written + 1, remaining := 0, activity := .none } := by
    rw [Channel.afterWrite_of_queue (c := c) hqueue, show c.remaining = 1 from hone]
  have zero : c.remaining - 1 = 0 := by rw [show c.remaining = 1 from hone]
  have taken := State.recordTaken_channel ch (s.answeredTo flight)
  have stop : (s.answeredTo flight).atStop ch = (c.index == (s.stopWord ch).toNat % 256) := rfl
  have same : (s.answeredTo flight).channel ch = c := rfl
  obtain ⟨flag, stops, chEol, -⟩ := State.recordTaken_of_last (s := s.answeredTo flight) (ch := ch) last
  rw [stop, same, if_pos last] at taken
  rw [stop] at stops chEol
  rw [same] at flag chEol
  rw [taken] at endsAs channel
  have flagged : d.flag = true → c.flagSet = true := fun h => by
    rw [Channel.flagSet, show c.entry = some d from hentry]
    exact h
  have pending : c.afterWrite.pendingOp ≠ .none := fun h => PendingOp.noConfusion (hp.symm.trans h : PendingOp.pause = PendingOp.none)
  have eolSet : c.afterWrite.eolSet = d.eol := by
    rw [Channel.eolSet, show c.afterWrite.entry = some d from hentry]
    rfl
  refine ⟨t, runs, flies, others, fun h => causes _ (flag (flagged h)), fun held => ?_, fun pass eol index => ?_, fun pass hend => ?_⟩
  · have stands : (c.index == (s.stopWord ch).toNat % 256) = true := beq_iff_eq.mpr held
    have halted : (c.afterWrite.filled true).halted = { written with state := .held } := by
      rw [Channel.filled, if_pos rfl, Channel.halted_of_not_active (show ChannelState.held ≠ .active from nofun), wrote]
      dsimp only [written]
      rw [zero]
    rw [stands, halted] at endsAs channel
    exact ⟨endsAs, channel, causes _ (stops stands)⟩
  all_goals
    have passes : (c.index == (s.stopWord ch).toNat % 256) = false := beq_eq_false_iff_ne.mpr pass
    rw [passes, Channel.filled, if_neg Bool.false_ne_true] at endsAs channel
  · have notEnd : c.afterWrite.atEnd = false := c.afterWrite.atEnd_eq_false_iff.mpr ⟨eolSet.trans eol, index⟩
    have halted : c.afterWrite.movedOn.halted = { written with state := .paused, entry := none, index := c.index + 1 } := by
      rw [Channel.movedOn_of_next_pending notEnd pending, Channel.halted_of_active rfl, wrote]
      dsimp only [written]
      rw [zero]
    rw [halted] at endsAs channel
    exact ⟨endsAs, channel⟩
  · have atEnd : c.afterWrite.atEnd = true := c.afterWrite.atEnd_eq_true_iff.mpr (hend.imp eolSet.trans id)
    refine ⟨causes _ (chEol passes atEnd), fun table auto hr => ?_, fun hr ha => ?_, fun hr ha => ?_⟩
    · have halted : c.afterWrite.movedOn.halted = { written with
          state := .paused, entry := none, index := 0, table := table, autoRestart := auto, restart := none } := by
        rw [Channel.movedOn_of_restart_pending atEnd hr pending, Channel.halted_of_active rfl, wrote]
        dsimp only [written]
        rw [zero]
      rw [halted] at endsAs channel
      exact ⟨endsAs, channel⟩
    · have halted : c.afterWrite.movedOn.halted = { written with state := .paused, entry := none, index := 0 } := by
        rw [Channel.movedOn_of_auto_pending atEnd hr ha pending, Channel.halted_of_active rfl, wrote]
        dsimp only [written]
        rw [zero]
      rw [halted] at endsAs channel
      exact ⟨endsAs, channel⟩
    · have halted : c.afterWrite.movedOn.halted = { written with state := .ended } := by
        rw [Channel.movedOn_of_over atEnd hr ha, Channel.halted_of_not_active (show ChannelState.ended ≠ .active from nofun), wrote]
        dsimp only [written]
        rw [zero]
      rw [halted] at endsAs channel
      exact ⟨endsAs, channel⟩

/-- A pending PAUSE at the completion of a record that leaves room in its entry (R144, R147). -/
theorem pause_with_room {r : OwnRequest} {flight : List InFlight} {rest : List Record} {q : Record} (hq : s.quiet = true)
    (hf : s.tru.flight = .own r :: flight) (hrun : s.csu.running = [{ slot := n, phase := .channelOp ch }])
    (hpurpose : r.purpose = .record ch) (hkind : r.kind = .write) (hp : (s.channel ch).pendingOp = .pause)
    (hstate : (s.channel ch).state = .active) (hqueue : (s.channel ch).queue = q :: rest) (hmany : 2 ≤ (s.channel ch).remaining) :
    ∃ t, exec .ownWriteCompletion s = .next t ∧ t.tru.flight = flight ∧ (∀ k, k ≠ ch → t.channel k = s.channel k)
      ∧ s.EndsAs t n .ok 3
      ∧ t.channel ch = { s.channel ch with
          queue := rest, written := (s.channel ch).written + 1, remaining := (s.channel ch).remaining - 1, activity := .none
          pendingOp := .none, state := .paused } := by
  obtain ⟨t, runs, endsAs, channel, flies, others, -⟩ := exec_recordWritten_pause hq hf hrun hpurpose hkind hp
  have room : (s.channel ch).afterWrite.remaining ≠ 0 := Nat.sub_ne_zero_of_lt hmany
  have taken : ((s.answeredTo flight).recordTaken ch).channel ch = (s.channel ch).afterWrite :=
    (State.recordTaken_channel ch (s.answeredTo flight)).trans (if_neg room)
  have halted : (s.channel ch).afterWrite.halted = { (s.channel ch).afterWrite with state := .paused, pendingOp := .none } :=
    Channel.halted_of_active hstate
  rw [taken, halted] at endsAs channel
  rw [Channel.afterWrite_of_queue hqueue] at channel
  exact ⟨t, runs, flies, others, endsAs, channel⟩

/-- A pending operation at the completion of a record write (R144, R147, R148). -/
theorem recordWrite_settles {r : OwnRequest} {flight : List InFlight} (hq : s.quiet = true)
    (hf : s.tru.flight = .own r :: flight) (hrun : s.csu.running = [{ slot := n, phase := .channelOp ch }])
    (hpurpose : r.purpose = .record ch) (hkind : r.kind = .write) (hp : (s.channel ch).pendingOp = .terminate) :
    ∃ t, exec .ownWriteCompletion s = .next t ∧ t.tru.flight = flight ∧ (∀ k, k ≠ ch → t.channel k = s.channel k)
      ∧ s.EndsAs t n .ok 0 ∧ t.channel ch = (s.channel ch).afterWrite.terminated ∧ t.csu.causes = s.csu.causes ||| 1#32
      ∧ t.sac.counters.recordsDropped[ch] =
          satAdd max32 s.sac.counters.recordsDropped[ch] (s.channel ch).afterWrite.queue.length := by
  obtain ⟨settled, closed⟩ := State.quiet_iff.mp hq
  obtain ⟨t, ends, endsAs, channel, causes, dropped, flies, others⟩ :=
    (State.atRest_answeredTo flight closed).settlePending_of_terminate (ch := ch) hrun Channel.afterWrite hp
  have completed : State.ownWriteCompleted r.purpose (s.answeredTo flight) =
      ((s.answeredTo flight).onChannel ch Channel.afterWrite).settlePending ch := by
    rw [hpurpose]
    exact State.recordWritten_of_terminate hp
  exact ⟨t, by rw [exec_ownWriteCompletion settled hf hkind, completed, ends], flies, others, endsAs.of_answeredTo, channel, causes,
    dropped⟩

/-- A pending TERMINATE at the return of a descriptor (R148). -/
theorem descriptorReturn_terminates {r : OwnRequest} {flight : List InFlight} {beat : List Byte} (hq : s.quiet = true)
    (hf : s.tru.flight = .own r :: flight) (hrun : s.csu.running = [{ slot := n, phase := .channelOp ch }])
    (hpurpose : r.purpose = .descriptor ch) (hkind : r.kind = .read) (hlength : beat.length = 32 * r.beats)
    (hp : (s.channel ch).pendingOp = .terminate) :
    ∃ t, exec (.ownReadReturn beat) s = .next t ∧ t.tru.flight = flight ∧ (∀ k, k ≠ ch → t.channel k = s.channel k)
      ∧ s.EndsAs t n .ok 0 ∧ t.channel ch = (s.channel ch).terminated ∧ t.csu.causes = s.csu.causes ||| 1#32
      ∧ t.sac.counters.recordsDropped[ch] = satAdd max32 s.sac.counters.recordsDropped[ch] (s.channel ch).queue.length := by
  obtain ⟨settled, closed⟩ := State.quiet_iff.mp hq
  obtain ⟨t, ends, endsAs, channel, causes, dropped, flies, others⟩ :=
    (State.atRest_answeredTo flight closed).settlePending_of_terminate (ch := ch) hrun (fun c => { c with activity := .none }) hp
  have returned : State.ownReadReturned r.purpose beat (s.answeredTo flight) =
      ((s.answeredTo flight).onChannel ch fun c => { c with activity := .none }).settlePending ch := by
    rw [hpurpose]
    exact State.descriptorReturn_of_terminate beat hp
  exact ⟨t, by rw [exec_ownReadReturn settled hf hkind hlength, returned, ends], flies, others, endsAs.of_answeredTo, channel, causes,
    dropped⟩

/-- What judging a returned descriptor makes of its channel (R142). -/
def Channel.judged (ch : Fin 3) (d : Descriptor) (c : Channel) : Channel :=
  if d.bad ch then { c with activity := .none, state := .fault, entry := none }
  else { c with activity := .none, entry := some d, remaining := d.capacity }

theorem State.judgeDescriptor_channel (ch : Fin 3) (d : Descriptor) (s : State) :
    (s.judgeDescriptor ch d).channel ch = (s.channel ch).judged ch d := by
  unfold State.judgeDescriptor Channel.judged
  split
  · rw [State.raise_channel, State.onChannel_channel_same]
  · rw [State.onChannel_channel_same]

theorem State.judgeDescriptor_chFault {d : Descriptor} (h : d.bad ch = true) : (s.judgeDescriptor ch d).csu.causes.getLsbD 11 = true := by
  rw [State.judgeDescriptor, if_pos h]
  exact State.raise_bit .chFault _

/-- A pending PAUSE at the return of a descriptor (R142, R147). -/
theorem descriptorReturn_pauses {r : OwnRequest} {flight : List InFlight} {beat : List Byte} (hq : s.quiet = true)
    (hf : s.tru.flight = .own r :: flight) (hrun : s.csu.running = [{ slot := n, phase := .channelOp ch }])
    (hpurpose : r.purpose = .descriptor ch) (hkind : r.kind = .read) (hlength : beat.length = 32 * r.beats)
    (hp : (s.channel ch).pendingOp = .pause) :
    let d := descriptorOf (s.channel ch).index beat
    ∃ t, exec (.ownReadReturn beat) s = .next t ∧ t.tru.flight = flight ∧ (∀ k, k ≠ ch → t.channel k = s.channel k)
      ∧ s.EndsAs t n .ok (BitVec.ofNat 32 ((s.channel ch).judged ch d).halted.state.code)
      ∧ t.channel ch = ((s.channel ch).judged ch d).halted ∧ (d.bad ch = true → t.csu.causes.getLsbD 11 = true) := by
  intro d
  obtain ⟨settled, closed⟩ := State.quiet_iff.mp hq
  have judged : ((s.answeredTo flight).judgeDescriptor ch d).channel ch = (s.channel ch).judged ch d :=
    State.judgeDescriptor_channel ch d (s.answeredTo flight)
  have pending : (((s.answeredTo flight).judgeDescriptor ch d).channel ch).pendingOp = .pause := by
    rw [judged, Channel.judged]
    split <;> exact hp
  obtain ⟨t, ends, endsAs, channel, flies, others, causes⟩ := (State.atRest_answeredTo flight closed).settlePending_of_pause hrun
    (State.judgeDescriptor_changes ch d (s.answeredTo flight)) pending
  rw [judged] at endsAs channel
  have returned : State.ownReadReturned r.purpose beat (s.answeredTo flight) =
      ((s.answeredTo flight).judgeDescriptor ch d).settlePending ch := by
    rw [hpurpose]
    exact State.descriptorReturn_eq beat (fun h => PendingOp.noConfusion (hp.symm.trans h : PendingOp.pause = PendingOp.terminate))
  exact ⟨t, by rw [exec_ownReadReturn settled hf hkind hlength, returned, ends], flies, others, endsAs.of_answeredTo, channel,
    fun h => causes 11 (State.judgeDescriptor_chFault h)⟩

/-- Settles O50. -/
theorem channelHalts : Obligations.ChannelHalts := by
  refine ⟨fun s n ch ready code hch hw => ?_, fun s n r flight ch hq hf hrun hstate => ?_⟩
  · intro op c
    refine ⟨fun hop => exec_channelPause ready code hch hop hw, fun hop => exec_channelResume ready code hch hop, fun hop => ?_⟩
    obtain ⟨t, runs, ends, pends, others⟩ := exec_channelTerminate ready code hch hop hw
    refine ⟨t, runs, fun idle => ?_, pends, others⟩
    obtain ⟨completes, channel, dropped⟩ := ends idle
    refine ⟨completes, channel.trans ?_, dropped⟩
    rw [Channel.terminated, idle]
  · intro c stopped terminated
    obtain ⟨settled, closed⟩ := State.quiet_iff.mp hq
    have atRest := State.atRest_answeredTo flight closed
    have idle : c.pendingOp = .none → c.pendingOp ≠ .terminate ∧ c.pendingOp ≠ .pause := fun h => by rw [h]; exact ⟨nofun, nofun⟩
    have pausing : c.pendingOp = .pause → c.pendingOp ≠ .terminate := fun h => by rw [h]; nofun
    have terminating : c.pendingOp = .terminate → c.pendingOp ≠ .pause := fun h => by rw [h]; nofun
    have ops : c.pendingOp = .none ∨ c.pendingOp = .pause ∨ c.pendingOp = .terminate := by
      cases c.pendingOp with
      | none => exact .inl rfl
      | pause => exact .inr (.inl rfl)
      | terminate => exact .inr (.inr rfl)
    refine ⟨fun q rest d hpurpose hkind hactivity hqueue hentry => ?_, fun beat hpurpose hkind hbeats hlength hactivity => ?_⟩
    · intro written atStop
      rcases ops with hp | hp | hp
      · obtain ⟨notTerminate, notPause⟩ := idle hp
        have changes := State.recordTaken_changes ch (s.answeredTo flight)
        have pending : (((s.answeredTo flight).recordTaken ch).channel ch).pendingOp = .none := by
          rw [State.recordTaken_channel]
          split
          · exact (Channel.filled_pendingOp _ _).trans hp
          · exact hp
        have completed : State.ownWriteCompleted r.purpose (s.answeredTo flight) = (s.answeredTo flight).recordTaken ch := by
          rw [hpurpose]
          exact (State.recordWritten_eq (s := s.answeredTo flight) notTerminate).trans (State.settlePending_of_none pending)
        obtain ⟨flies, others⟩ := atRest.finish_frame changes
        exact ⟨_, by rw [exec_ownWriteCompletion settled hf hkind, completed], flies, others, fun h => absurd h notTerminate,
          fun h => absurd h notPause, fun h => absurd h notPause⟩
      · by_cases many : 2 ≤ c.remaining
        · obtain ⟨t, runs, flies, others, endsAs, channel⟩ := pause_with_room hq hf hrun hpurpose hkind hp hstate hqueue many
          exact ⟨t, runs, flies, others, fun h => absurd h (pausing hp), fun _ _ => ⟨endsAs, channel⟩, fun _ one => absurd many (by omega)⟩
        · by_cases one : c.remaining = 1
          · obtain ⟨t, runs, flies, others, rules⟩ := pause_at_last hq hf hrun hpurpose hkind hp hqueue hentry one
            exact ⟨t, runs, flies, others, fun h => absurd h (pausing hp), fun _ h => absurd h many, fun _ _ => rules⟩
          · obtain ⟨t, runs, -, -, flies, others, -⟩ := exec_recordWritten_pause hq hf hrun hpurpose hkind hp
            exact ⟨t, runs, flies, others, fun h => absurd h (pausing hp), fun _ h => absurd h many, fun _ h => absurd h one⟩
      · obtain ⟨t, runs, flies, others, endsAs, channel, causes, dropped⟩ := recordWrite_settles hq hf hrun hpurpose hkind hp
        rw [Channel.afterWrite_of_queue hqueue] at channel dropped
        exact ⟨t, runs, flies, others, fun _ => ⟨endsAs, channel, causes, dropped⟩, fun h => absurd h (terminating hp),
          fun h => absurd h (terminating hp)⟩
    · intro o d bad
      have length : beat.length = 32 * r.beats := by rw [hlength, hbeats]
      have badIff : (descriptorOf c.index beat).bad ch = true ↔ bad := Descriptor.bad_iff ch _
      rcases ops with hp | hp | hp
      · obtain ⟨notTerminate, notPause⟩ := idle hp
        have changes := State.judgeDescriptor_changes ch (descriptorOf c.index beat) (s.answeredTo flight)
        have pending : (((s.answeredTo flight).judgeDescriptor ch (descriptorOf c.index beat)).channel ch).pendingOp = .none := by
          rw [State.judgeDescriptor_channel, Channel.judged]
          split <;> exact hp
        have returned : State.ownReadReturned r.purpose beat (s.answeredTo flight) =
            (s.answeredTo flight).judgeDescriptor ch (descriptorOf c.index beat) := by
          rw [hpurpose]
          exact (State.descriptorReturn_eq (s := s.answeredTo flight) beat notTerminate).trans (State.settlePending_of_none pending)
        obtain ⟨flies, others⟩ := atRest.finish_frame changes
        exact ⟨_, by rw [exec_ownReadReturn settled hf hkind length, returned], flies, others, fun h => absurd h notTerminate,
          fun h => absurd h notPause, fun h => absurd h notPause⟩
      · obtain ⟨t, runs, flies, others, endsAs, channel, fault⟩ := descriptorReturn_pauses hq hf hrun hpurpose hkind length hp
        refine ⟨t, runs, flies, others, fun h => absurd h (pausing hp), fun _ hbad => ?_, fun _ hgood => ?_⟩
        · have isBad : (descriptorOf c.index beat).bad ch = true := badIff.mpr hbad
          have halted : (c.judged ch (descriptorOf c.index beat)).halted =
              { c with state := .fault, entry := none, activity := .none, pendingOp := .none } := by
            rw [Channel.judged, if_pos isBad, Channel.halted_of_not_active (show ChannelState.fault ≠ .active from nofun)]
          rw [halted] at endsAs channel
          exact ⟨endsAs, fault isBad, channel⟩
        · have halted : (c.judged ch (descriptorOf c.index beat)).halted =
              { c with state := .paused, entry := some d, remaining := d.capacity, activity := .none, pendingOp := .none } := by
            rw [Channel.judged, if_neg (mt badIff.mp hgood)]
            exact Channel.halted_of_active hstate
          rw [halted] at endsAs channel
          exact ⟨endsAs, channel⟩
      · obtain ⟨t, runs, flies, others, endsAs, channel, causes, dropped⟩ :=
          descriptorReturn_terminates hq hf hrun hpurpose hkind length hp
        exact ⟨t, runs, flies, others, fun _ => ⟨endsAs, channel, causes, dropped⟩, fun h => absurd h (terminating hp),
          fun h => absurd h (terminating hp)⟩

end Sys2Proof.Machine
end

section
/-! PROOFS. The deadline (O25), and what the planner changes when it commits. -/

namespace Sys2Proof.Machine

variable {s t u : State}

/-! ### What the planner changes -/

/-- From `s` to `t` the planner has committed pieces or graded the open one, by the tables in force (R77, R92 to R95). -/
structure State.Plans (s t : State) : Prop where
  lcu : t.lcu = { s.lcu with gaps := t.lcu.gaps }
  fdu : t.fdu = { s.fdu with blobs := t.fdu.blobs, lastBlobId := t.fdu.lastBlobId, store := t.fdu.store }
  ppl : t.ppl = { s.ppl with
    piece := t.ppl.piece, nextPiece := t.ppl.nextPiece, raisedAtOnce := t.ppl.raisedAtOnce, provisional := t.ppl.provisional }
  cdu : t.cdu = { s.cdu with queue := t.cdu.queue }
  tru : t.tru = { s.tru with placing := t.tru.placing }
  sac : t.sac = { s.sac with counters := t.sac.counters }
  lines : t.sac.counters.lines = s.sac.counters.lines
  csu : t.csu = { s.csu with causes := t.csu.causes, statusWaiting := t.csu.statusWaiting }
  causes : ∀ i, s.csu.causes.getLsbD i = true → t.csu.causes.getLsbD i = true

theorem State.Plans.refl (s : State) : s.Plans s := ⟨rfl, rfl, rfl, rfl, rfl, rfl, rfl, rfl, fun _ => id⟩

theorem State.Plans.trans (h : s.Plans t) (h' : t.Plans u) : s.Plans u where
  lcu := by rw [h'.lcu, h.lcu]
  fdu := by rw [h'.fdu, h.fdu]
  ppl := by rw [h'.ppl, h.ppl]
  cdu := by rw [h'.cdu, h.cdu]
  tru := by rw [h'.tru, h.tru]
  sac := by rw [h'.sac, h.sac]
  lines := h'.lines.trans h.lines
  csu := by rw [h'.csu, h.csu]
  causes i hi := h'.causes i (h.causes i hi)

theorem State.Plans.sparesCommands (h : s.Plans t) : s.SparesCommands t :=
  ⟨by rw [h.csu], by rw [h.csu], by rw [h.csu], by rw [h.tru], h.causes⟩

theorem State.Bookkeeps.plans (h : s.Bookkeeps t) (lines : t.sac.counters.lines = s.sac.counters.lines)
    (causes : ∀ i, s.csu.causes.getLsbD i = true → t.csu.causes.getLsbD i = true) :
    s.Plans t :=
  ⟨by rw [h.lcu], by rw [h.fdu], by rw [h.ppl], by rw [h.cdu], h.tru, h.sac, lines, h.csu, causes⟩

theorem State.recordFlaw_plans (seq : Word) (s : State) (f : Flaw) : s.Plans (s.recordFlaw seq f) := by
  obtain ⟨_, _, counters⟩ := State.foldl_recordFlaw_counters seq [f] s
  exact (State.recordFlaw_bookkeeps seq s f).plans (congrArg ShiftCounters.lines counters :) fun _ hi => State.produce_keepsCauses hi

theorem State.foldl_recordFlaw_plans (seq : Word) (l : List Flaw) (s : State) : s.Plans (l.foldl (State.recordFlaw seq) s) :=
  foldl_related State.Plans.refl State.Plans.trans l s fun s f _ => State.recordFlaw_plans seq s f

theorem State.pieceOutcome_keepsCauses (p : Piece) (o : PieceOutcome) (i : Option (Fin 4 × Byte × Pos)) (c : Byte) {n : Nat}
    (h : s.csu.causes.getLsbD n = true) : (s.pieceOutcome p o i c).csu.causes.getLsbD n = true := by
  unfold State.pieceOutcome
  cases o with
  | cut => exact State.produce_keepsCauses h
  | abandoned => exact State.produce_keepsCauses h
  | missed => exact State.raise_keepsCauses (State.produce_keepsCauses h)
  | faulted => exact State.raise_keepsCauses (State.produce_keepsCauses h)

theorem State.pieceOutcome_lines (p : Piece) (o : PieceOutcome) (i : Option (Fin 4 × Byte × Pos)) (c : Byte) (s : State) :
    (s.pieceOutcome p o i c).sac.counters.lines = s.sac.counters.lines := by
  unfold State.pieceOutcome
  dsimp only
  generalize RecordBody.piece _ = body
  obtain ⟨dropped, h⟩ := State.produce_counters chPiece body s
  cases o with
  | cut => simp [State.count, h]
  | missed => simp [State.count, h]
  | faulted => simp [State.count, h]
  | abandoned => simp [State.count, h]

theorem State.collected_plans (s : State) (mode : CommitMode) (e : Pos) : s.Plans (s.collected mode e) :=
  ⟨rfl, rfl, rfl, rfl, rfl, rfl, rfl, rfl, fun _ => id⟩

theorem State.queued_plans (s : State) (mode : CommitMode) (start : Pos) (c : Choice) : s.Plans (s.queued mode start c) :=
  ⟨rfl, rfl, rfl, rfl, rfl, rfl, rfl, rfl, fun _ => id⟩

theorem State.recorded_plans (s : State) (mode : CommitMode) (e : Pos) (t : State) : t.Plans (s.recorded mode e t) :=
  State.foldl_recordFlaw_plans _ _ _

theorem State.armAt_plans (p : Pos) (s : State) : s.Plans (s.armAt p) := ⟨rfl, rfl, rfl, rfl, rfl, rfl, rfl, rfl, fun _ => id⟩

theorem State.commit_plans (mode : CommitMode) (start : Pos) (c : Choice) (s : State) : s.Plans (s.commit mode start c) := by
  rcases Nat.lt_or_ge s.cdu.queue.length 16 with room | full
  · rw [State.commit_of_room room]
    exact ((s.queued_plans mode start c).trans (s.recorded_plans mode c.stop _)).trans (State.armAt_plans _ _)
  · rw [State.commit_of_full full]
    exact (((s.collected_plans mode c.stop).trans (s.recorded_plans mode c.stop _)).trans (State.armAt_plans _ _)).trans
      ((State.pieceOutcome_bookkeeps ..).plans (State.pieceOutcome_lines ..) fun _ => State.pieceOutcome_keepsCauses _ _ _ _)

theorem State.checkLoop_plans (fuel : Nat) : ∀ s : State, s.Plans (State.checkLoop fuel s) := by
  induction fuel with
  | zero => exact .refl
  | succ fuel ih =>
    intro s
    unfold State.checkLoop
    split
    · exact .refl s
    · split
      · split
        · exact .refl s
        · split
          · exact .refl s
          · exact (State.commit_plans ..).trans (ih _)
      · exact .refl s

theorem State.computeProvisional_plans (s : State) : s.Plans s.computeProvisional :=
  ⟨rfl, rfl, rfl, rfl, rfl, rfl, rfl, rfl, fun _ => id⟩

/-- Staged tables of the planner change the planner alone (R65, R99). -/
theorem State.takePlannerTables_eq (s : State) : ∃ p, s.takePlannerTables = { s with ppl := p } := by
  have armed : ∀ t : State, ∃ p, t.armDeadline = { t with ppl := p } := by
    intro t
    unfold State.armDeadline
    split
    · exact ⟨_, rfl⟩
    · exact ⟨_, rfl⟩
  unfold State.takePlannerTables
  dsimp only
  split
  · split
    · exact armed _
    · exact armed _
  · split
    · exact ⟨_, rfl⟩
    · exact ⟨_, rfl⟩

theorem State.takePlannerTables_of_none_staged (hg : s.ppl.stagedGrade = none) (hp : s.ppl.stagedProduct = none) :
    s.takePlannerTables = s := by
  unfold State.takePlannerTables
  rw [hg]
  dsimp only
  rw [hp]

/-- A deadline expiry leaves the outputs of the last command. -/
theorem State.expiry_outputs (s : State) : s.expiry.lcu.ltrig = s.lcu.ltrig ∧ s.expiry.tru.answers = s.tru.answers := by
  obtain ⟨p, hp⟩ := s.takePlannerTables_eq
  have passes : ∀ t : State, ({ s with ppl := p } : State).Plans t → t.lcu.ltrig = s.lcu.ltrig ∧ t.tru.answers = s.tru.answers :=
    fun t h => ⟨(congrArg Lcu.ltrig h.lcu :), (congrArg Tru.answers h.tru :)⟩
  unfold State.expiry
  dsimp only
  rw [hp]
  split
  · exact ⟨rfl, rfl⟩
  · split
    · exact passes _ (((State.commit_plans ..).trans (State.checkLoop_plans _ _)).trans (State.computeProvisional_plans _))
    · exact ⟨rfl, rfl⟩

/-! ### An expiry that was raised at once comes before any command -/

theorem State.settle_congr (h : s.settleExpiry = t.settleExpiry) : s.settle = t.settle := by
  unfold State.settle
  rw [h]

/-- What the two states of one command must share for it to do the same in both. -/
structure State.ActsAs (s t : State) : Prop where
  low : s.porstLow = false
  low' : t.porstLow = false
  same : s.clearOutputs.settleExpiry = t.clearOutputs.settleExpiry

theorem State.ActsAs.command (h : s.ActsAs t) (f : State → State) : command f s = command f t := by
  simp only [Machine.command, State.commandState, h.low, h.low', State.settle_congr h.same, Bool.false_eq_true, if_false]

theorem State.ActsAs.taken (h : s.ActsAs t) (owed : State → Bool) (f : State → State) : taken owed f s = taken owed f t := by
  simp only [Machine.taken, State.takenState, h.low, h.low', h.same, Bool.false_eq_true, if_false]

theorem State.ActsAs.exec (h : s.ActsAs t) {c : Instr} (hp : ∀ x, c ≠ .powerOnReset x) (hl : c ≠ .porstNLow) : exec c s = exec c t := by
  cases c with
  | powerOnReset x => exact absurd rfl (hp x)
  | porstNLow => exact absurd rfl hl
  | encoderEdge e =>
    change execEncoderEdge e s = execEncoderEdge e t
    simp only [execEncoderEdge, h.low, h.low', State.settle_congr h.same, Bool.false_eq_true, if_false]
  | millisecondTick =>
    change execMillisecondTick s = execMillisecondTick t
    simp only [execMillisecondTick, h.low, h.low', State.settle_congr h.same, Bool.false_eq_true, if_false]
  | entryDue =>
    change execEntryDue s = execEntryDue t
    simp only [execEntryDue, h.low, h.low', h.same, Bool.false_eq_true, if_false]
  | lineTrigger => exact h.taken _ _
  | entryMissed => exact h.taken _ _
  | cutTimeout => exact h.taken _ _
  | fullyMaskedForward => exact h.taken _ _
  | ownRequestPlaced => exact h.taken _ _
  | _ => exact h.command _

/-- O25's command: with an expiry owed, a command acts as on the state after that expiry (R81, R82). -/
theorem State.actsAs_of_expiryOwed (low : s.porstLow = false) (owed : s.expiryOwed = true)
    (done : (s.clearOutputs.event State.expiry).expiryOwed = false) : s.ActsAs (s.clearOutputs.event State.expiry) := by
  obtain ⟨t, ht⟩ : ∃ t, t = s.clearOutputs.event State.expiry := ⟨_, rfl⟩
  rw [← ht] at done ⊢
  have outputs := s.clearOutputs.expiry_outputs
  have ltrig : t.lcu.ltrig = false := by
    rw [ht, State.event, State.finish_lcu]
    exact outputs.1
  have answers : t.tru.answers = [] := by
    rw [ht, State.event, State.finish_tru_answers]
    exact outputs.2
  have cleared : t.clearOutputs = t := by
    rw [State.clearOutputs, ← ltrig, ← answers]
  have expires : s.clearOutputs.settleExpiry = t :=
    (State.ifOwed_of_owed (owed := State.expiryOwed) (s := s.clearOutputs) owed).trans ht.symm
  have low' : t.porstLow = false := by
    rw [ht, State.event, State.finish_porstLow]
    exact s.clearOutputs.expiry_steady.porstLow.trans low
  refine ⟨low, low', ?_⟩
  rw [expires, cleared]
  exact (State.ifOwed_of_not (owed := State.expiryOwed) done).symm

/-! ### The deadline -/

/-- The deadline lies issue_margin before the shortest product's fire position (R81). -/
theorem State.firePos_sub_deadlineOf (s : State) (p : Pos) :
    s.firePos (ahead p s.ppl.lmin) - s.deadlineOf p = BitVec.ofNat 32 s.cdu.link.issueMargin := by
  rw [State.deadlineOf, behind]
  bv_omega

theorem State.feasible_iff {e : Pos} : s.feasible e = true
    ↔ s.cdu.link.issueMargin ≤ dist s.lcu.counter (s.firePos e) ∧ dist s.lcu.counter (s.firePos e) < 2 ^ 31 := by
  rw [State.feasible, Bool.and_eq_true, decide_eq_true_iff, decide_eq_true_iff]

theorem State.feasible_at_deadline {p : Pos} (hm : s.cdu.link.issueMargin < 2 ^ 24) (h : s.lcu.counter = s.deadlineOf p) :
    dist s.lcu.counter (s.firePos (ahead p s.ppl.lmin)) = s.cdu.link.issueMargin ∧ s.feasible (ahead p s.ppl.lmin) = true := by
  have d : dist s.lcu.counter (s.firePos (ahead p s.ppl.lmin)) = s.cdu.link.issueMargin := by
    rw [dist, h, s.firePos_sub_deadlineOf, BitVec.toNat_ofNat]
    omega
  refine ⟨d, ?_⟩
  rw [State.feasible_iff, d]
  omega

theorem State.infeasible_after_deadline {p : Pos} (hm : s.cdu.link.issueMargin < 2 ^ 24) (h : s.lcu.counter = s.deadlineOf p + 1) :
    s.feasible (ahead p s.ppl.lmin) = false := by
  have d : s.firePos (ahead p s.ppl.lmin) - s.lcu.counter = BitVec.ofNat 32 s.cdu.link.issueMargin - 1#32 := by
    rw [h, ← s.firePos_sub_deadlineOf p]
    exact (BitVec.sub_sub _ _ _).symm
  rw [← Bool.not_eq_true, State.feasible_iff, dist, d]
  bv_omega

/-- Settles O25: the arithmetic of R80 and R81, and `State.actsAs_of_expiryOwed` for the expiry that nothing overtakes. -/
theorem deadlineIsTheLastFeasibleMoment : Obligations.DeadlineIsTheLastFeasibleMoment := by
  refine ⟨fun s p hm => ⟨State.feasible_at_deadline hm, State.infeasible_after_deadline hm⟩, fun s p hp => ?_,
    fun c s hr hl low owed done => (State.actsAs_of_expiryOwed low owed done).exec hr hl⟩
  have armed : s.armDeadline = s.armAt p.start := by rw [State.armDeadline, hp]
  rw [armed, State.armAt_expiryOwed]
  exact ⟨rfl, reaches_iff⟩

end Sys2Proof.Machine
end

section
/-! PROOFS. A commit that the planner's check does not follow up, and MANUAL_CUT (O29). -/

namespace Sys2Proof.Machine

variable {s t u : State}

/-! ### A commit and the check that waits -/

theorem State.checkLoop_of_waits {p : OpenPiece} {k : Nat} (hp : s.ppl.piece = some p) (h : s.normalConditions p.start = false) :
    State.checkLoop k s = s := by
  cases k with
  | zero => rfl
  | succ k =>
    unfold State.checkLoop
    rw [hp]
    exact if_neg (by rw [h]; exact Bool.false_ne_true)

/-- The open piece after a commit begins where the committed one ends (R94). -/
theorem State.commit_piece (h : s.cdu.queue.length < 16) (mode : CommitMode) (start : Pos) (c : Choice) :
    (s.commit mode start c).ppl.piece = some { start := c.stop, deadline := s.deadlineOf c.stop } := by
  obtain ⟨-, -, -, -, piece, -⟩ := State.commit_frame (base := s.queued mode start c) (State.commit_of_room h) rfl rfl rfl rfl rfl rfl rfl
  exact piece

/-- A commit with a place, whose new piece the planner check leaves waiting (R77, R90 to R94). -/
def State.decided (s : State) (mode : CommitMode) (start : Pos) (c : Choice) : State :=
  ((s.commit mode start c).checkLoop cutQueueCapacity).computeProvisional

theorem State.decided_plans (s : State) (mode : CommitMode) (start : Pos) (c : Choice) : s.Plans (s.decided mode start c) :=
  ((State.commit_plans ..).trans (State.checkLoop_plans _ _)).trans (State.computeProvisional_plans _)

theorem State.decided_of_waits {mode : CommitMode} {start : Pos} {c : Choice} (room : s.cdu.queue.length < 16)
    (waits : (s.commit mode start c).normalConditions c.stop = false) :
    s.decided mode start c = (s.commit mode start c).computeProvisional := by
  rw [State.decided, State.checkLoop_of_waits (State.commit_piece room mode start c) waits]

theorem State.decided_facts {mode : CommitMode} {start : Pos} {c : Choice} (room : s.cdu.queue.length < 16)
    (waits : (s.commit mode start c).normalConditions c.stop = false) :
    (s.decided mode start c).cdu = { s.cdu with queue := s.cdu.queue ++ [{ piece := s.pieceOf mode start c, state := .waiting false }] }
      ∧ (s.decided mode start c).ppl.piece = some { start := c.stop, deadline := s.deadlineOf c.stop }
      ∧ (s.decided mode start c).ppl.nextPiece = nextSequence s.ppl.nextPiece := by
  obtain ⟨-, -, cdu, next, piece, -⟩ :=
    State.commit_frame (base := s.queued mode start c) (State.commit_of_room room) rfl rfl rfl rfl rfl rfl rfl
  rw [State.decided_of_waits room waits]
  exact ⟨cdu, piece, next⟩

/-- What a commit decides does not follow the outputs, nor the slot that a command has taken. -/
theorem State.commit_normalConditions_congr {mode : CommitMode} {start : Pos} {c : Choice} (room : s.cdu.queue.length < 16)
    (fdu : t.fdu = s.fdu) (ppl : t.ppl = s.ppl) (cdu : t.cdu = s.cdu) (p : Pos) :
    (t.commit mode start c).normalConditions p = (s.commit mode start c).normalConditions p := by
  have blobs : (t.commit mode start c).fdu.blobs = (s.commit mode start c).fdu.blobs := by
    obtain ⟨-, fdu', -⟩ :=
      State.commit_frame (base := s.queued mode start c) (State.commit_of_room room) rfl rfl rfl rfl rfl rfl rfl
    obtain ⟨-, fdu'', -⟩ :=
      State.commit_frame (base := t.queued mode start c) (State.commit_of_room (by rw [cdu]; exact room)) rfl rfl rfl rfl rfl rfl rfl
    rw [fdu', fdu'']
    simp only [State.collected, State.changeCollections, fdu, ppl]
  have h := State.commit_plans mode start c s
  have h' := State.commit_plans mode start c t
  simp only [State.normalConditions, State.gradingScan, blobs,
    show (t.commit mode start c).fdu.scan = (s.commit mode start c).fdu.scan by rw [h.fdu, h'.fdu, fdu],
    show (t.commit mode start c).ppl.scanSeen = (s.commit mode start c).ppl.scanSeen by rw [h.ppl, h'.ppl, ppl],
    show (t.commit mode start c).ppl.lmax = (s.commit mode start c).ppl.lmax by rw [h.ppl, h'.ppl, ppl],
    show (t.commit mode start c).ppl.product = (s.commit mode start c).ppl.product by rw [h.ppl, h'.ppl, ppl]]
  rfl

/-! ### MANUAL_CUT -/

theorem beginManualCut_of_refusal {n : Fin 8} {c : Command} {reason : Word} (h : s.manualRefusal c.arg1 = some reason)
    (hg : s.ppl.stagedGrade = none) (hp : s.ppl.stagedProduct = none) :
    beginManualCut n c s = s.complete n .infeasible reason := by
  unfold beginManualCut
  rw [State.takePlannerTables_of_none_staged hg hp]
  dsimp only
  rw [h]

/-- The choice of a manual cut at `e` (R96). -/
def manualChoice (e : Pos) : Choice := { stop := e, product := none, cutout := false, belowFloor := false }

theorem beginManualCut_of_accepted {n : Fin 8} {c : Command} {p : OpenPiece} (h : s.manualRefusal c.arg1 = none)
    (hg : s.ppl.stagedGrade = none) (hp : s.ppl.stagedProduct = none) (hpiece : s.ppl.piece = some p) :
    beginManualCut n c s = (s.decided .manual p.start (manualChoice c.arg1)).complete n .ok s.ppl.nextPiece := by
  have commits : s.manualCommit c.arg1 = s.decided .manual p.start (manualChoice c.arg1) := by
    unfold State.manualCommit
    rw [hpiece]
    rfl
  unfold beginManualCut
  rw [State.takePlannerTables_of_none_staged hg hp]
  dsimp only
  rw [h, commits]

/-- An accepted manual cut has an open piece and a place in the cut queue (R96). -/
theorem State.room_of_manualRefusal {e : Pos} (h : s.manualRefusal e = none) : s.cdu.queue.length < 16 := by
  unfold State.manualRefusal at h
  split at h
  · exact absurd h nofun
  · split at h
    · exact absurd h nofun
    · split at h
      · exact absurd h nofun
      · split at h
        · exact absurd h nofun
        · next room => exact Nat.not_le.mp room

/-- R96's tests in their order. -/
theorem State.manualRefusal_tests (s : State) (e : Pos) :
    (s.ppl.piece = none → s.manualRefusal e = some 1)
      ∧ ∀ p, s.ppl.piece = some p →
        (dist p.start e < s.ppl.product.minStrip ∨ 2 ^ 31 ≤ dist p.start e → s.manualRefusal e = some 2)
        ∧ (s.ppl.product.minStrip ≤ dist p.start e → dist p.start e < 2 ^ 31 →
          (s.feasible e = false → s.manualRefusal e = some 3)
          ∧ (s.feasible e = true → 16 ≤ s.cdu.queue.length → s.manualRefusal e = some 4)
          ∧ (s.feasible e = true → s.cdu.queue.length < 16 → s.manualRefusal e = none)) := by
  refine ⟨fun none => by rw [State.manualRefusal, none], fun p hp => ⟨fun short => ?_, fun long after => ?_⟩⟩
  · rw [State.manualRefusal, hp]
    exact if_pos short
  have far : ¬(dist p.start e < s.ppl.product.minStrip ∨ 2 ^ 31 ≤ dist p.start e) := by omega
  have passes : s.manualRefusal e = if !s.feasible e then some 3 else if cutQueueCapacity ≤ s.cdu.queue.length then some 4 else none := by
    rw [State.manualRefusal, hp]
    exact if_neg far
  refine ⟨fun late => ?_, fun ok full => ?_, fun ok room => ?_⟩
  · rw [passes, late]
    rfl
  · rw [passes, ok]
    exact if_pos full
  · rw [passes, ok]
    exact if_neg (Nat.not_le.mpr room)

/-- Settles O29: the refusals complete the command alone, and an accepted cut is `State.decided`. -/
theorem manualCut : Obligations.ManualCut := by
  refine ⟨fun s n ready code hg hp => ?_, State.manualRefusal_tests⟩
  have row : hasCode codeManualCut (s.slot n).command = true := by
    rw [hasCode, code]
    rfl
  obtain ⟨v, hv⟩ : ∃ v, v = s.clearOutputs.takeCommand n := ⟨_, rfl⟩
  have same : ∀ e, v.manualRefusal e = s.manualRefusal e := fun e => by rw [hv]; rfl
  constructor
  · intro reason refused
    have body : beginManualCut n (s.slot n).command v = v.complete n .infeasible reason :=
      beginManualCut_of_refusal ((same _).trans refused) (by rw [hv]; exact hg) (by rw [hv]; exact hp)
    obtain ⟨lcu, fdu, ppl, cdu, sac, rou⟩ := v.complete_units n .infeasible reason
    obtain ⟨runs, completes⟩ := beginning_completes (row := hasCode codeManualCut) (body := beginManualCut) (u := v) (st := .infeasible) (v := reason) ready row
      (by rw [← hv]; exact body) (by rw [← hv]; exact .refl _) (by rw [hv]; rfl) (by rw [hv]; rfl)
    exact ⟨(v.complete n .infeasible reason).placeAll, runs, completes, ppl.trans (by rw [hv]; rfl), cdu.trans (by rw [hv]; rfl),
      fdu.trans (by rw [hv]; rfl), sac.trans (by rw [hv]; rfl), rou.trans (by rw [hv]; rfl),
      State.onlyOwn_placeAll (State.clearOutputs_placing ready) ((State.complete_tru n .infeasible reason v).trans (by rw [hv]; rfl)),
      lcu.trans (by rw [hv]; rfl)⟩
  · intro p piece accepted c waits
    have room := State.room_of_manualRefusal accepted
    have waits' : (v.commit .manual p.start c).normalConditions c.stop = false :=
      (State.commit_normalConditions_congr room (by rw [hv]; rfl) (by rw [hv]; rfl) (by rw [hv]; rfl) _).trans waits
    have body : beginManualCut n (s.slot n).command v = (v.decided .manual p.start c).complete n .ok v.ppl.nextPiece :=
      beginManualCut_of_accepted ((same _).trans accepted) (by rw [hv]; exact hg) (by rw [hv]; exact hp) (by rw [hv]; exact piece)
    have plans := v.decided_plans .manual p.start c
    obtain ⟨cdu, newPiece, next⟩ := State.decided_facts (s := v) (by rw [hv]; exact room) waits'
    obtain ⟨d, hd⟩ : ∃ d, d = v.decided .manual p.start c := ⟨_, rfl⟩
    rw [← hd] at body plans cdu newPiece next
    have completes : s.CompletesAs (d.complete n .ok s.ppl.nextPiece).finish n .ok s.ppl.nextPiece :=
      State.completesAs ready (hv ▸ plans.sparesCommands)
    have runs : exec .manualCut s = .next (d.complete n .ok s.ppl.nextPiece).finish := by
      refine (command_of_ready (body := beginManualCut) ready row).trans ?_
      rw [← hv, body, show v.ppl.nextPiece = s.ppl.nextPiece by rw [hv]; rfl]
    obtain ⟨lcu', fdu', ppl', cdu', -, -⟩ := d.complete_units n .ok s.ppl.nextPiece
    refine ⟨_, runs, completes, ?_, ?_, ?_, ?_, ?_⟩
    · rw [State.finish_cdu, cdu', cdu, hv]
      rfl
    · rw [State.finish_ppl, ppl', newPiece, hv]
      rfl
    · rw [State.finish_ppl, ppl', next, hv]
      rfl
    · rw [State.finish_lcu, lcu', plans.lcu, hv]
      rfl
    · rw [State.finish_fdu, fdu', plans.fdu, hv]
      rfl

end Sys2Proof.Machine
end

section
/-! PROOFS. The decisions of the planner and the events that commit them (O28). -/

namespace Sys2Proof.Machine

variable {s t u : State}

/-! ### The expiry and the planner check -/

theorem State.expiry_of_raised {p : OpenPiece} (hg : s.ppl.stagedGrade = none) (hp : s.ppl.stagedProduct = none)
    (piece : s.ppl.piece = some p) (raised : s.expiryRaised = true) :
    s.expiry = s.decided .forced p.start (s.forcedDecision p.start) := by
  unfold State.expiry
  rw [State.takePlannerTables_of_none_staged hg hp]
  dsimp only
  rw [piece]
  exact if_pos raised

theorem State.deadlineExpiry_commits {p : OpenPiece} (settled : s.settled = true) (raised : s.expiryRaised = true)
    (piece : s.ppl.piece = some p) (hg : s.ppl.stagedGrade = none) (hp : s.ppl.stagedProduct = none) (room : s.cdu.queue.length < 16)
    (waits : (s.commit .forced p.start (s.forcedDecision p.start)).normalConditions (s.forcedDecision p.start).stop = false) :
    ∃ t, exec .deadlineExpiry s = .next t
      ∧ t.cdu = { s.cdu with
          queue := s.cdu.queue ++ [{ piece := s.pieceOf .forced p.start (s.forcedDecision p.start), state := .waiting false }] }
      ∧ t.ppl.piece = some
          { start := (s.forcedDecision p.start).stop, deadline := s.deadlineOf (s.forcedDecision p.start).stop }
      ∧ t.ppl.nextPiece = nextSequence s.ppl.nextPiece
      ∧ t.ppl.product = s.ppl.product ∧ t.ppl.grade = s.ppl.grade
      ∧ t.lcu.counter = s.lcu.counter ∧ t.lcu.lineQueue = s.lcu.lineQueue ∧ t.fdu.reference = s.fdu.reference
      ∧ t.csu.inspection = s.csu.inspection ∧ t.tru.flight = s.tru.flight := by
  obtain ⟨w, hw⟩ : ∃ w, w = s.clearOutputs := ⟨_, rfl⟩
  obtain ⟨c, hc⟩ : ∃ c, c = s.forcedDecision p.start := ⟨_, rfl⟩
  rw [← hc] at waits ⊢
  have choice : w.forcedDecision p.start = c := by
    rw [hw, hc]
    rfl
  have room' : w.cdu.queue.length < 16 := by
    rw [hw]
    exact room
  have waits' : (w.commit .forced p.start c).normalConditions c.stop = false :=
    (State.commit_normalConditions_congr room (by rw [hw]; rfl) (by rw [hw]; rfl) (by rw [hw]; rfl) _).trans waits
  have raised' : w.expiryRaised = true := by
    rw [hw]
    exact raised
  have expires : w.expiry = w.decided .forced p.start c := by
    rw [State.expiry_of_raised (by rw [hw]; exact hg) (by rw [hw]; exact hp) (by rw [hw]; exact piece) raised', choice]
  have runs : exec .deadlineExpiry s = .next (w.decided .forced p.start c).finish := by
    refine (command_next settled).trans ?_
    rw [← hw, if_pos raised', expires]
  have plans := w.decided_plans .forced p.start c
  obtain ⟨cdu, newPiece, next⟩ := State.decided_facts room' waits'
  refine ⟨_, runs, ?_, ?_, ?_, ?_, ?_, ?_, ?_, ?_, ?_, ?_⟩
  · rw [State.finish_cdu, cdu, hw]
    rfl
  · rw [State.finish_ppl, newPiece, hw]
    rfl
  · rw [State.finish_ppl, next, hw]
    rfl
  · rw [State.finish_ppl, plans.ppl, hw]
    rfl
  · rw [State.finish_ppl, plans.ppl, hw]
    rfl
  · rw [State.finish_lcu, plans.lcu, hw]
    rfl
  · rw [State.finish_lcu, plans.lcu, hw]
    rfl
  · rw [State.finish_fdu, plans.fdu, hw]
    rfl
  · rw [State.finish_csu_inspection, plans.csu, hw]
    rfl
  · rw [State.finish_tru_flight, plans.tru, hw]
    rfl

/-- The conditions Settled and Clear (R83). -/
theorem State.normalConditions_iff {p : Pos} : s.normalConditions p = true ↔
    ((s.gradingScan p - p).toNat < 2 ^ 31 ∧ s.ppl.lmax + s.ppl.product.settle ≤ (s.gradingScan p - p).toNat)
      ∧ ∀ b ∈ s.fdu.blobs, before b.first (p + BitVec.ofNat 32 (s.ppl.lmax + s.ppl.product.cutClear)) = false := by
  simp only [State.normalConditions, Bool.and_eq_true, reaches_iff, decide_eq_true_iff, Bool.not_eq_true', List.any_eq_false,
    Bool.not_eq_true]
  rfl

theorem State.plannerCheck_waits {p : OpenPiece} (hg : s.ppl.stagedGrade = none) (hp : s.ppl.stagedProduct = none)
    (piece : s.ppl.piece = some p)
    (h : s.normalConditions p.start = false ∨ s.normalDecision p.start = none ∨ 16 ≤ s.cdu.queue.length) :
    s.plannerCheck = s.computeProvisional := by
  have loop : s.checkLoop cutQueueCapacity = s := by
    cases hn : s.normalConditions p.start with
    | false => exact State.checkLoop_of_waits piece hn
    | true =>
      unfold cutQueueCapacity State.checkLoop
      rw [piece]
      dsimp only
      rw [if_pos hn]
      split
      · rfl
      · next decides =>
        have full : 16 ≤ s.cdu.queue.length := by
          rcases h with h | h | h
          · exact absurd (hn.symm.trans h) nofun
          · exact absurd (decides.symm.trans h) nofun
          · exact h
        exact if_pos full
  rw [State.plannerCheck, State.takePlannerTables_of_none_staged hg hp, loop]

theorem State.plannerCheck_commits {p : OpenPiece} {c : Choice} (hg : s.ppl.stagedGrade = none) (hp : s.ppl.stagedProduct = none)
    (piece : s.ppl.piece = some p) (conditions : s.normalConditions p.start = true) (decides : s.normalDecision p.start = some c)
    (room : s.cdu.queue.length < 16) (waits : (s.commit .normal p.start c).normalConditions c.stop = false) :
    s.plannerCheck = (s.commit .normal p.start c).computeProvisional := by
  have loop : s.checkLoop cutQueueCapacity = s.commit .normal p.start c := by
    have first : s.checkLoop cutQueueCapacity = (s.commit .normal p.start c).checkLoop 15 := by
      unfold cutQueueCapacity
      rw [State.checkLoop, piece]
      dsimp only
      rw [if_pos conditions, decides]
      exact if_neg (Nat.not_le.mpr room)
    rw [first]
    exact State.checkLoop_of_waits (State.commit_piece room .normal p.start c) waits
  rw [State.plannerCheck, State.takePlannerTables_of_none_staged hg hp, loop]

/-! ### The first product -/

/-- The search of the enabled products is a search of the table (R85). -/
theorem ProductTable.find?_enabledProducts (t : ProductTable) (q : Fin 8 × Product → Bool) :
    t.enabledProducts.find? q = ((List.finRange 8).find? fun j => t.products[j].enabled && q (j, t.products[j])).map
      fun j => (j, t.products[j]) := by
  have tests : ∀ j : Fin 8, (if t.products[j].enabled then some (j, t.products[j]) else none).any q
      = (t.products[j].enabled && q (j, t.products[j])) := fun j => by
    cases t.products[j].enabled <;> rfl
  rw [ProductTable.enabledProducts, List.find?_filterMap]
  simp only [tests]
  cases hj : (List.finRange 8).find? fun j => t.products[j].enabled && q (j, t.products[j]) with
  | none => rfl
  | some j =>
    have found := List.find?_some hj
    exact if_pos (Bool.and_eq_true_iff.mp found).1

section
variable {t : ProductTable} {q : Fin 8 × Product → Bool} {P : Fin 8 → Prop} {i : Fin 8}

theorem ProductTable.find?_of_first (hP : ∀ j, P j ↔ t.products[j].enabled = true ∧ q (j, t.products[j]) = true)
    (h : firstProduct P i) : t.enabledProducts.find? q = some (i, t.products[i]) := by
  rw [ProductTable.find?_enabledProducts,
    find?_finRange (b := i) (Bool.and_eq_true_iff.mpr ((hP i).mp h.1)) fun j hj => by
      rw [← Bool.not_eq_true, Bool.and_eq_true_iff, ← hP]
      exact h.2 j hj]
  rfl

theorem ProductTable.find?_of_none (hP : ∀ j, P j ↔ t.products[j].enabled = true ∧ q (j, t.products[j]) = true)
    (h : ∀ j, ¬P j) : t.enabledProducts.find? q = none := by
  rw [ProductTable.find?_enabledProducts, Option.map_eq_none_iff, List.find?_eq_none]
  intro j _
  rw [Bool.and_eq_true_iff, ← hP]
  exact h j

end

/-! ### The decisions -/

theorem Grade.atLeast_iff {x g : Grade} : Grade.atLeast x g = true ↔ g.code ≤ x.code := decide_eq_true_iff

section
variable {start : Pos} {i : Fin 8} {mode : CommitMode}

/-- The tests of the product step (R85). -/
theorem State.productStep_tests (s : State) (mode : CommitMode) (start : Pos) (j : Fin 8) :
    (s.usable start j ∧ s.meetsFloor mode.withBlobs start j) ↔ s.ppl.product.products[j].enabled = true
      ∧ (s.feasible (ahead start s.ppl.product.products[j].length) && !s.straddled (ahead start s.ppl.product.products[j].length)
        && Grade.atLeast s.ppl.product.products[j].floor
          (s.grading mode.withBlobs start (ahead start s.ppl.product.products[j].length)).grade) = true := by
  rw [Bool.and_eq_true_iff, Bool.and_eq_true_iff, Bool.not_eq_true', Grade.atLeast_iff]
  exact ⟨fun ⟨⟨⟨enabled, feasible⟩, clear⟩, floor⟩ => ⟨enabled, ⟨feasible, clear⟩, floor⟩,
    fun ⟨enabled, ⟨feasible, clear⟩, floor⟩ => ⟨⟨⟨enabled, feasible⟩, clear⟩, floor⟩⟩

theorem State.productStep_of_first (h : firstProduct (fun j => s.usable start j ∧ s.meetsFloor mode.withBlobs start j) i) :
    s.productStep mode start = some { stop := s.endOf start i, product := some i, cutout := false, belowFloor := false } := by
  rw [State.productStep, ProductTable.find?_of_first (s.productStep_tests mode start) h]
  rfl

theorem State.productStep_of_none (h : ∀ j, ¬(s.usable start j ∧ s.meetsFloor mode.withBlobs start j)) :
    s.productStep mode start = none := by
  rw [State.productStep, ProductTable.find?_of_none (s.productStep_tests mode start) h]
  rfl

/-- The tests of the fallback of a normal decision (R88). -/
theorem State.usable_tests (s : State) (start : Pos) (j : Fin 8) : s.usable start j ↔ s.ppl.product.products[j].enabled = true
    ∧ (s.feasible (ahead start s.ppl.product.products[j].length)
      && !s.straddled (ahead start s.ppl.product.products[j].length)) = true := by
  rw [Bool.and_eq_true_iff, Bool.not_eq_true']
  exact and_assoc

theorem State.normalFallback_of_first (h : firstProduct (s.usable start) i) :
    s.normalFallback start = some { stop := s.endOf start i, product := some i, cutout := false, belowFloor := true } := by
  rw [State.normalFallback, ProductTable.find?_of_first (s.usable_tests start) h]
  rfl

theorem State.normalFallback_of_none (h : ∀ j, ¬s.usable start j) : s.normalFallback start = none := by
  rw [State.normalFallback, ProductTable.find?_of_none (s.usable_tests start) h]
  rfl

/-- The tests of the fallback of a forced decision (R89). -/
theorem State.reachable_tests (s : State) (start : Pos) (j : Fin 8) : s.reachable start j ↔ s.ppl.product.products[j].enabled = true
    ∧ s.feasible (ahead start s.ppl.product.products[j].length) = true := Iff.rfl

theorem State.forcedFallback_of_first (h : firstProduct (s.reachable start) i) :
    ∃ below, s.forcedFallback start = { stop := s.endOf start i, product := some i, cutout := false, belowFloor := below }
      ∧ (below = true ↔ ¬s.meetsFloor true start i) := by
  rw [State.forcedFallback, ProductTable.find?_of_first (s.reachable_tests start) h]
  refine ⟨_, rfl, ?_⟩
  rw [Bool.not_eq_true', ← Bool.not_eq_true, Grade.atLeast_iff]
  rfl

theorem State.forcedFallback_of_none (h : ∀ j, ¬s.reachable start j) : s.forcedFallback start = s.lateCut start := by
  rw [State.forcedFallback, ProductTable.find?_of_none (s.reachable_tests start) h]

/-- A forced cut-out does not wait (R87). -/
theorem State.cutoutStep_forced_ne_waits (s : State) (start : Pos) : s.cutoutStep .forced start ≠ .waits := by
  unfold State.cutoutStep
  split
  · nofun
  · dsimp only
    split
    · nofun
    · rw [if_neg fun h => absurd h.1 nofun]
      nofun

theorem State.normalDecision_of_none (h : ∀ j, ¬(s.usable start j ∧ s.meetsFloor false start j)) :
    (∀ c, s.cutoutStep .normal start = .commits c → s.normalDecision start = some c)
      ∧ (s.cutoutStep .normal start = .waits → s.normalDecision start = none)
      ∧ (s.cutoutStep .normal start = .fallThrough → s.normalDecision start = s.normalFallback start) := by
  have step : s.productStep .normal start = none := State.productStep_of_none h
  refine ⟨fun c answer => ?_, fun answer => ?_, fun answer => ?_⟩
  all_goals rw [State.normalDecision, step, answer]

theorem State.forcedDecision_of_none (h : ∀ j, ¬(s.usable start j ∧ s.meetsFloor true start j)) :
    (∀ c, s.cutoutStep .forced start = .commits c → s.forcedDecision start = c)
      ∧ (s.cutoutStep .forced start = .fallThrough → s.forcedDecision start = s.forcedFallback start) := by
  have step : s.productStep .forced start = none := State.productStep_of_none h
  refine ⟨fun c answer => ?_, fun answer => ?_⟩
  all_goals rw [State.forcedDecision, step, answer]

/-- The table of the decisions (R84 to R89). -/
theorem State.decisions (s : State) (start : Pos) :
    (∀ i, firstProduct (fun j => s.usable start j ∧ s.meetsFloor false start j) i →
      s.normalDecision start = some { stop := s.endOf start i, product := some i, cutout := false, belowFloor := false })
    ∧ ((∀ i, ¬(s.usable start i ∧ s.meetsFloor false start i)) →
      (∀ c, s.cutoutStep .normal start = .commits c → s.normalDecision start = some c)
      ∧ (s.cutoutStep .normal start = .waits → s.normalDecision start = none)
      ∧ (s.cutoutStep .normal start = .fallThrough →
          (∀ i, firstProduct (s.usable start) i →
            s.normalDecision start = some { stop := s.endOf start i, product := some i, cutout := false, belowFloor := true })
          ∧ ((∀ i, ¬s.usable start i) → s.normalDecision start = none)))
    ∧ (∀ i, firstProduct (fun j => s.usable start j ∧ s.meetsFloor true start j) i →
      s.forcedDecision start = { stop := s.endOf start i, product := some i, cutout := false, belowFloor := false })
    ∧ ((∀ i, ¬(s.usable start i ∧ s.meetsFloor true start i)) →
      s.cutoutStep .forced start ≠ .waits
      ∧ (∀ c, s.cutoutStep .forced start = .commits c → s.forcedDecision start = c)
      ∧ (s.cutoutStep .forced start = .fallThrough →
          (∀ i, firstProduct (s.reachable start) i →
            ∃ below, s.forcedDecision start = { stop := s.endOf start i, product := some i, cutout := false, belowFloor := below }
              ∧ (below = true ↔ ¬s.meetsFloor true start i))
          ∧ ((∀ i, ¬s.reachable start i) → s.forcedDecision start = s.lateCut start))) := by
  refine ⟨fun i h => ?_, fun h => ?_, fun i h => ?_, fun h => ?_⟩
  · rw [State.normalDecision, State.productStep_of_first (mode := .normal) h]
  · obtain ⟨commits, waits, falls⟩ := State.normalDecision_of_none h
    exact ⟨commits, waits, fun answer => ⟨fun i first => (falls answer).trans (State.normalFallback_of_first first),
      fun none => (falls answer).trans (State.normalFallback_of_none none)⟩⟩
  · rw [State.forcedDecision, State.productStep_of_first (mode := .forced) h]
  · obtain ⟨commits, falls⟩ := State.forcedDecision_of_none h
    refine ⟨s.cutoutStep_forced_ne_waits start, commits, fun answer => ⟨fun i first => ?_, fun none => ?_⟩⟩
    · obtain ⟨below, fallback, floor⟩ := State.forcedFallback_of_first first
      exact ⟨below, (falls answer).trans fallback, floor⟩
    · exact (falls answer).trans (State.forcedFallback_of_none none)

end

/-! ### Flaws that straddle -/

theorem State.straddled_iff (s : State) (e : Pos) :
    s.straddled e = true ↔
      (∃ f ∈ s.fdu.store, before f.first (e + BitVec.ofNat 32 s.ppl.product.cutClear) = true
        ∧ before (e - BitVec.ofNat 32 s.ppl.product.cutClear) f.stop = true)
      ∨ ∃ b ∈ s.fdu.blobs, b.area ≠ 0 ∧ before b.first (e + BitVec.ofNat 32 s.ppl.product.cutClear) = true
          ∧ before (e - BitVec.ofNat 32 s.ppl.product.cutClear) (b.last + BitVec.ofNat 32 s.fdu.detect.ldiv) = true := by
  simp only [State.straddled, State.extents, List.any_append, List.any_map, List.any_filter, Function.comp_apply, Bool.or_eq_true,
    List.any_eq_true, decide_eq_true_iff, straddles, Bool.and_eq_true]
  rfl

end Sys2Proof.Machine
end

section
/-! PROOFS. The cut-out (R86, R87), and the events that commit decisions (O28). -/

namespace Sys2Proof.Machine

variable {s t u : State}

/-! ### The cut-out flaws -/

/-- A flaw that begins in the candidate's range and is worth a cut-out (R86). -/
def State.worth (s : State) (start : Pos) (f : Flaw) : Prop :=
  (f.first - start).toNat < s.ppl.lmax ∧ (f.points = 255 ∨ s.ppl.grade.cutoutPoints ≤ f.points)

/-- A position from `start` on and before its end `n` counts later lies less than `n` counts behind it. -/
theorem reaches_before_ahead_iff {start p : Pos} {n : Nat} (hn : n < 2 ^ 31) :
    reaches start p = true ∧ before p (ahead start n) = true ↔ (p - start).toNat < n := by
  rw [reaches_iff, before_iff, ahead]
  bv_omega

theorem State.qualifies_iff {start : Pos} {f : Flaw} (hl : s.ppl.lmax < 2 ^ 31) : s.qualifies start f = true ↔ s.worth start f := by
  rw [State.qualifies, Bool.and_eq_true, Bool.and_eq_true, reaches_before_ahead_iff hl, Bool.or_eq_true, Flaw.disqualifying,
    decide_eq_true_iff, decide_eq_true_iff]
  rfl

theorem State.mem_cutoutFlaws_iff (s : State) (mode : CommitMode) (start : Pos) (hl : s.ppl.lmax < 2 ^ 31) (v : CutoutFlaw) :
    v ∈ s.cutoutFlaws mode start ↔
      (∃ f ∈ s.fdu.store, s.worth start f ∧ v = { first := f.first, id := f.id, stop := f.stop })
      ∨ (mode ≠ .normal ∧ ∃ b ∈ s.fdu.blobs, b.area ≠ 0
          ∧ s.worth start (b.provisional s.fdu.detect s.fdu.classes s.ppl.grade (ahead start s.ppl.lmax) false)
          ∧ v = { first := b.first, id := b.id, stop := b.last + BitVec.ofNat 32 s.fdu.detect.ldiv }) := by
  have stored : v ∈ (s.fdu.store.filter (s.qualifies start)).map (fun f => ({ first := f.first, id := f.id, stop := f.stop } : CutoutFlaw))
      ↔ ∃ f ∈ s.fdu.store, s.worth start f ∧ v = { first := f.first, id := f.id, stop := f.stop } := by
    simp only [List.mem_map, List.mem_filter, State.qualifies_iff hl, and_assoc, eq_comm (b := v)]
  have provisional : ∀ b : Blob, (b.provisionalAt (ahead start s.ppl.lmax)
      && s.qualifies start (b.provisional s.fdu.detect s.fdu.classes s.ppl.grade (ahead start s.ppl.lmax) false)) = true
      ↔ b.area ≠ 0 ∧ s.worth start (b.provisional s.fdu.detect s.fdu.classes s.ppl.grade (ahead start s.ppl.lmax) false) := by
    intro b
    rw [Bool.and_eq_true, Blob.provisionalAt, Bool.and_eq_true, decide_eq_true_iff, State.qualifies_iff hl]
    refine ⟨fun ⟨⟨area, _⟩, worth⟩ => ⟨area, worth⟩, fun ⟨area, worth⟩ => ⟨⟨area, ?_⟩, worth⟩⟩
    exact ((reaches_before_ahead_iff hl).mpr worth.1).2
  have opened : v ∈ ((s.fdu.blobs.filter fun b => b.provisionalAt (ahead start s.ppl.lmax)
        && s.qualifies start (b.provisional s.fdu.detect s.fdu.classes s.ppl.grade (ahead start s.ppl.lmax) false)).map
          fun b => ({ first := b.first, id := b.id, stop := b.stop s.fdu.detect.ldiv } : CutoutFlaw))
      ↔ ∃ b ∈ s.fdu.blobs, b.area ≠ 0
          ∧ s.worth start (b.provisional s.fdu.detect s.fdu.classes s.ppl.grade (ahead start s.ppl.lmax) false)
          ∧ v = { first := b.first, id := b.id, stop := b.last + BitVec.ofNat 32 s.fdu.detect.ldiv } := by
    simp only [List.mem_map, List.mem_filter, provisional, and_assoc, eq_comm (b := v)]
    rfl
  unfold State.cutoutFlaws
  rw [List.mem_append, stored]
  refine or_congr_right ?_
  cases mode with
  | normal => exact ⟨fun h => absurd h List.not_mem_nil, fun h => absurd rfl h.1⟩
  | forced => exact opened.trans ⟨fun h => ⟨nofun, h⟩, fun h => h.2⟩
  | manual => exact opened.trans ⟨fun h => ⟨nofun, h⟩, fun h => h.2⟩

/-! ### The pick -/

/-- `v` is picked before `w` whichever stands first (R86). -/
def CutoutFlaw.Beats (v w : CutoutFlaw) : Prop := v.pick w = v ∧ w.pick v = v

theorem CutoutFlaw.pick_mem (v w : CutoutFlaw) : v.pick w = v ∨ v.pick w = w := by
  unfold CutoutFlaw.pick
  split
  · exact .inr rfl
  · split
    · exact .inr rfl
    · exact .inl rfl

/-- A choice between two that prefers `v` to everything else in the list, whichever stands first, chooses `v` of the list. -/
theorem foldl_choose {α : Type} {pick : α → α → α} (choice : ∀ v w, pick v w = v ∨ pick v w = w) {v : α} (l : List α) :
    ∀ f, v ∈ f :: l → (∀ w ∈ f :: l, w ≠ v → pick v w = v ∧ pick w v = v) → l.foldl pick f = v := by
  have self : pick v v = v := or_self_iff.mp (choice v v)
  induction l with
  | nil => exact fun f hv _ => (List.mem_singleton.mp hv).symm
  | cons g l ih =>
    intro f hv beats
    have picked : f = v ∨ g = v → pick f g = v := by
      rintro (rfl | rfl)
      · by_cases h : g = f
        · rw [h, self]
        · exact (beats g (by simp) h).1
      · by_cases h : f = g
        · rw [h, self]
        · exact (beats f (by simp) h).2
    refine ih (pick f g) ?_ fun w hw => beats w ?_
    · rcases List.mem_cons.mp hv with rfl | hv
      · rw [picked (.inl rfl)]
        exact List.mem_cons_self
      · rcases List.mem_cons.mp hv with rfl | hv
        · rw [picked (.inr rfl)]
          exact List.mem_cons_self
        · exact List.mem_cons_of_mem _ hv
    · rcases List.mem_cons.mp hw with rfl | hw
      · rcases choice f g with h | h
        · rw [h]
          exact List.mem_cons_self
        · rw [h]
          exact List.mem_cons_of_mem _ List.mem_cons_self
      · exact List.mem_cons_of_mem _ (List.mem_cons_of_mem _ hw)

/-- Of two flaws within 2^31 counts of `start`, the one that begins earlier there is picked, and of two that begin together the lower id
(R86). -/
theorem CutoutFlaw.beats_of_earlier {start : Pos} {v w : CutoutFlaw} (hv : (v.first - start).toNat < 2 ^ 31)
    (hw : (w.first - start).toNat < 2 ^ 31)
    (h : (v.first - start).toNat < (w.first - start).toNat ∨ (v.first = w.first ∧ v.id < w.id)) : v.Beats w := by
  rcases h with h | ⟨same, id⟩
  · have vw : before v.first w.first = true := by
      rw [before_iff]
      bv_omega
    have wv : ¬before w.first v.first = true := by
      rw [before_iff]
      bv_omega
    have apart : ¬(w.first = v.first ∧ w.id < v.id) := fun e => by
      rw [e.1] at h
      exact Nat.lt_irrefl _ h
    exact ⟨by rw [CutoutFlaw.pick, if_neg wv, if_neg apart], by rw [CutoutFlaw.pick, if_pos vw]⟩
  · have neither : ¬before v.first v.first = true := by
      rw [before_iff]
      bv_omega
    refine ⟨?_, ?_⟩
    · rw [CutoutFlaw.pick, ← same, if_neg neither, if_neg fun e => Nat.lt_asymm id e.2]
    · rw [CutoutFlaw.pick, ← same, if_neg neither, if_pos ⟨rfl, id⟩]

/-- The candidates of the cut-out step begin within Lmax of S (R86). -/
theorem State.first_of_mem_cutoutFlaws {mode : CommitMode} {start : Pos} (hl : s.ppl.lmax < 2 ^ 31) {v : CutoutFlaw}
    (h : v ∈ s.cutoutFlaws mode start) : (v.first - start).toNat < 2 ^ 31 := by
  rcases (s.mem_cutoutFlaws_iff mode start hl v).mp h with ⟨f, -, worth, rfl⟩ | ⟨-, b, -, -, worth, rfl⟩
  · exact Nat.lt_trans worth.1 hl
  · exact Nat.lt_trans worth.1 hl

/-- Where the cut-out behind flaw `v` ends (R86, R87). -/
def State.cutoutEnd (s : State) (start : Pos) (v : CutoutFlaw) : Pos :=
  settleCut s.ppl.product.cutClear s.extents s.extents.length
    (laterOf (ahead start s.ppl.product.minStrip) (ahead v.stop s.ppl.product.cutClear))

/-- The cut-out step with the flaw that is picked (R86, R87). -/
theorem State.cutoutStep_of_pick {mode : CommitMode} {start : Pos} (hl : s.ppl.lmax < 2 ^ 31) {v : CutoutFlaw}
    (hv : v ∈ s.cutoutFlaws mode start)
    (least : ∀ w ∈ s.cutoutFlaws mode start, w ≠ v →
      (v.first - start).toNat < (w.first - start).toNat ∨ (v.first = w.first ∧ v.id < w.id)) :
    s.cutoutStep mode start =
      if !s.feasible (s.cutoutEnd start v) then .fallThrough
      else if mode = .normal ∧ s.fdu.blobs.any (fun b => before b.first (s.cutoutEnd start v)) then .waits
      else .commits { stop := s.cutoutEnd start v, product := none, cutout := true, belowFloor := false } := by
  have near := fun w (hw : w ∈ s.cutoutFlaws mode start) => State.first_of_mem_cutoutFlaws hl hw
  unfold State.cutoutStep
  split
  · next none =>
    rw [none] at hv
    exact absurd hv List.not_mem_nil
  · next f rest flaws =>
    have pick : rest.foldl CutoutFlaw.pick f = v := by
      rw [flaws] at hv least near
      exact foldl_choose CutoutFlaw.pick_mem rest f hv fun w hw hne =>
        CutoutFlaw.beats_of_earlier (near v hv) (near w hw) (least w hw hne)
    rw [pick]
    rfl

theorem State.cutout_of_pick {mode : CommitMode} {start : Pos} (hl : s.ppl.lmax < 2 ^ 31) {v : CutoutFlaw}
    (hv : v ∈ s.cutoutFlaws mode start)
    (least : ∀ w ∈ s.cutoutFlaws mode start, w ≠ v →
      (v.first - start).toNat < (w.first - start).toNat ∨ (v.first = w.first ∧ v.id < w.id)) :
    (s.feasible (s.cutoutEnd start v) = false → s.cutoutStep mode start = .fallThrough)
      ∧ (s.feasible (s.cutoutEnd start v) = true → mode = .normal → (∃ b ∈ s.fdu.blobs, before b.first (s.cutoutEnd start v) = true) →
        s.cutoutStep mode start = .waits)
      ∧ (s.feasible (s.cutoutEnd start v) = true →
        mode ≠ .normal ∨ (∀ b ∈ s.fdu.blobs, before b.first (s.cutoutEnd start v) = false) →
        s.cutoutStep mode start = .commits { stop := s.cutoutEnd start v, product := none, cutout := true, belowFloor := false }) := by
  rw [State.cutoutStep_of_pick hl hv least]
  obtain ⟨x, hx⟩ : ∃ x, x = s.cutoutEnd start v := ⟨_, rfl⟩
  rw [← hx]
  refine ⟨fun far => ?_, fun ok normal begun => ?_, fun ok passes => ?_⟩
  · rw [far]
    rfl
  · rw [ok, Bool.not_true, if_neg Bool.false_ne_true]
    exact if_pos ⟨normal, List.any_eq_true.mpr begun⟩
  · rw [ok, Bool.not_true, if_neg Bool.false_ne_true]
    refine if_neg fun ⟨normal, begun⟩ => ?_
    rcases passes with other | none
    · exact other normal
    · obtain ⟨b, hb, before⟩ := List.any_eq_true.mp begun
      exact absurd ((none b hb).symm.trans before) nofun

/-! ### Where the cut settles -/

section
variable {o x y p : Pos} {clear : Nat} {extents : List (Pos × Pos)}

/-- Seen from `o`, positions of the same half of the ribbon stand in the order of their distances. -/
theorem before_iff_dist_lt (hx : dist o x < 2 ^ 31) (hy : dist o y < 2 ^ 31) : before x y = true ↔ dist o x < dist o y := by
  rw [before_iff]
  unfold dist at *
  bv_omega

/-- Seen from `o`, the later of two positions is the one farther on. -/
theorem dist_laterOf (hx : dist o x < 2 ^ 31) (hy : dist o y < 2 ^ 31) : dist o (laterOf x y) = max (dist o x) (dist o y) := by
  have order := before_iff_dist_lt hx hy
  rw [laterOf]
  split
  · next h => exact (Nat.max_eq_right (Nat.le_of_lt (order.mp h))).symm
  · next h => exact (Nat.max_eq_left (Nat.not_lt.mp fun h' => h (order.mpr h'))).symm

theorem dist_ahead {n : Nat} (h : dist o x + n < 2 ^ 32) : dist o (ahead x n) = dist o x + n := by
  unfold dist ahead at *
  bv_omega

/-- A flaw straddles a position of the same half of the ribbon by plain comparison (R84). -/
theorem straddles_iff (hc : clear < 2 ^ 16) (hp : dist o p < 2 ^ 30 + 2 ^ 16) {f : Pos × Pos} (hf : dist o f.1 < 2 ^ 30 ∧ dist o f.2 < 2 ^ 30) :
    straddles clear p f.1 f.2 = true ↔ dist o f.1 < dist o p + clear ∧ dist o p < dist o f.2 + clear := by
  obtain ⟨h1, h2⟩ := hf
  have begins : dist o (ahead p clear) = dist o p + clear := dist_ahead (by omega)
  have ends : dist o (ahead f.2 clear) = dist o f.2 + clear := dist_ahead (by omega)
  have shifted : before (behind p clear) f.2 = before p (ahead f.2 clear) := by
    have same : f.2 - behind p clear = ahead f.2 clear - p := by
      rw [behind, ahead]
      bv_omega
    rw [before, before, dist, dist, same]
  rw [straddles, Bool.and_eq_true, shifted, before_iff_dist_lt (o := o) (by omega) (by omega),
    before_iff_dist_lt (o := o) (by omega) (by omega), begins, ends]

/-- One move of the cut: to the farthest end, clearance included, of the flaws that straddle it (R87). -/
def moveCut (clear : Nat) (f : Pos × Pos) (rest : List (Pos × Pos)) : Pos :=
  rest.foldl (fun y g => laterOf y (ahead g.2 clear)) (ahead f.2 clear)

theorem dist_moveCut (hc : clear < 2 ^ 16) (rest : List (Pos × Pos)) :
    ∀ f, (∀ g ∈ f :: rest, dist o g.2 < 2 ^ 30) →
      (∃ g ∈ f :: rest, dist o (moveCut clear f rest) = dist o g.2 + clear)
        ∧ ∀ g ∈ f :: rest, dist o g.2 + clear ≤ dist o (moveCut clear f rest) := by
  intro f hf
  have stays : ∀ (l : List (Pos × Pos)) (x : Pos), dist o x < 2 ^ 30 + 2 ^ 16 → (∀ g ∈ l, dist o g.2 < 2 ^ 30) →
      (dist o (l.foldl (fun y g => laterOf y (ahead g.2 clear)) x) = dist o x
        ∨ ∃ g ∈ l, dist o (l.foldl (fun y g => laterOf y (ahead g.2 clear)) x) = dist o g.2 + clear)
      ∧ dist o x ≤ dist o (l.foldl (fun y g => laterOf y (ahead g.2 clear)) x)
      ∧ ∀ g ∈ l, dist o g.2 + clear ≤ dist o (l.foldl (fun y g => laterOf y (ahead g.2 clear)) x) := by
    intro l
    induction l with
    | nil => exact fun x _ _ => ⟨.inl rfl, Nat.le_refl _, fun g hg => absurd hg List.not_mem_nil⟩
    | cons g l ih =>
      intro x hx hl
      have hg := hl g List.mem_cons_self
      have moved := dist_ahead (o := o) (x := g.2) (n := clear) (by omega)
      have later := dist_laterOf (o := o) (x := x) (y := ahead g.2 clear) (by omega) (by omega)
      rw [moved] at later
      obtain ⟨source, least, bound⟩ := ih (laterOf x (ahead g.2 clear)) (by omega) fun g' hg' => hl g' (List.mem_cons_of_mem _ hg')
      rw [List.foldl_cons]
      refine ⟨?_, by omega, fun g' hg' => ?_⟩
      · rcases source with source | ⟨g', hg', eq⟩
        · rcases Nat.le_total (dist o x) (dist o g.2 + clear) with le | le
          · exact .inr ⟨g, List.mem_cons_self, by omega⟩
          · exact .inl (by omega)
        · exact .inr ⟨g', List.mem_cons_of_mem _ hg', eq⟩
      · rcases List.mem_cons.mp hg' with rfl | hg'
        · omega
        · exact bound g' hg'
  have first := hf f List.mem_cons_self
  have moved := dist_ahead (o := o) (x := f.2) (n := clear) (by omega)
  obtain ⟨source, least, bound⟩ := stays rest (ahead f.2 clear) (by omega) fun g hg => hf g (List.mem_cons_of_mem _ hg)
  refine ⟨?_, fun g hg => ?_⟩
  · rcases source with eq | ⟨g, hg, eq⟩
    · exact ⟨f, List.mem_cons_self, eq.trans moved⟩
    · exact ⟨g, List.mem_cons_of_mem _ hg, eq⟩
  · rcases List.mem_cons.mp hg with rfl | hg
    · exact moved ▸ least
    · exact bound g hg

/-- The number of flaws that end, clearance included, past a position: those that can still straddle it or a later one. -/
def endsPast (o : Pos) (clear : Nat) (extents : List (Pos × Pos)) (x : Pos) : Nat :=
  (extents.filter fun f => decide (dist o x < dist o f.2 + clear)).length

theorem endsPast_lt (hxy : dist o x ≤ dist o y) {f : Pos × Pos} (hf : f ∈ extents) (hx : dist o x < dist o f.2 + clear)
    (hy : dist o f.2 + clear ≤ dist o y) : endsPast o clear extents y < endsPast o clear extents x := by
  have narrows : extents.filter (fun f => decide (dist o y < dist o f.2 + clear))
      = (extents.filter fun f => decide (dist o x < dist o f.2 + clear)).filter fun f => decide (dist o y < dist o f.2 + clear) := by
    rw [List.filter_filter]
    refine List.filter_congr fun g _ => ?_
    rw [← Bool.decide_and]
    exact decide_eq_decide.mpr ⟨fun h => ⟨h, by omega⟩, And.left⟩
  rw [endsPast, endsPast, narrows, List.length_filter_lt_length_iff_exists]
  exact ⟨f, List.mem_filter.mpr ⟨hf, decide_eq_true hx⟩, by rw [decide_eq_true_iff]; omega⟩

/-- The cut settles at the first position from `x` on that no flaw straddles, if the moves suffice (R87). -/
theorem settleCut_settles (hc : clear < 2 ^ 16) (he : ∀ f ∈ extents, dist o f.1 < 2 ^ 30 ∧ dist o f.2 < 2 ^ 30) (fuel : Nat) :
    ∀ x, dist o x < 2 ^ 30 + 2 ^ 16 → endsPast o clear extents x ≤ fuel →
      dist o x ≤ dist o (settleCut clear extents fuel x) ∧ dist o (settleCut clear extents fuel x) < 2 ^ 30 + 2 ^ 16
      ∧ (∀ f ∈ extents, straddles clear (settleCut clear extents fuel x) f.1 f.2 = false)
      ∧ ∀ p, dist o x ≤ dist o p → dist o p < dist o (settleCut clear extents fuel x) →
        ∃ f ∈ extents, straddles clear p f.1 f.2 = true := by
  induction fuel with
  | zero =>
    intro x hx none
    refine ⟨Nat.le_refl _, hx, fun f hf => ?_, fun p h h' => absurd h (Nat.not_le.mpr h')⟩
    have past := List.filter_eq_nil_iff.mp (List.eq_nil_of_length_eq_zero (Nat.le_zero.mp none)) f hf
    rw [decide_eq_true_iff] at past
    rw [← Bool.not_eq_true]
    exact fun h => past ((straddles_iff hc hx (he f hf)).mp h).2
  | succ fuel ih =>
    intro x hx count
    unfold settleCut
    split
    · next still =>
      refine ⟨Nat.le_refl _, hx, fun f hf => ?_, fun p h h' => absurd h (Nat.not_le.mpr h')⟩
      rw [← Bool.not_eq_true]
      exact fun h => absurd (List.mem_filter.mpr ⟨hf, h⟩) (by rw [still]; exact List.not_mem_nil)
    · next f rest straddling =>
      have among : ∀ g ∈ f :: rest, g ∈ extents ∧ straddles clear x g.1 g.2 = true := fun g hg => by
        rw [← straddling] at hg
        exact List.mem_filter.mp hg
      have crosses := fun g hg => (straddles_iff hc hx (he g (among g hg).1)).mp (among g hg).2
      obtain ⟨⟨g, hg, reach⟩, bound⟩ := dist_moveCut (o := o) hc rest f fun g hg => (he g (among g hg).1).2
      have hg2 := (he g (among g hg).1).2
      have crossG := crosses g hg
      have crossF := crosses f List.mem_cons_self
      have boundF := bound f List.mem_cons_self
      have fewer : endsPast o clear extents (moveCut clear f rest) < endsPast o clear extents x :=
        endsPast_lt (by omega) (among f List.mem_cons_self).1 crossF.2 boundF
      obtain ⟨later, near, clears, least⟩ := ih (moveCut clear f rest) (by omega) (by omega)
      have farther : dist o x ≤ dist o (settleCut clear extents fuel (moveCut clear f rest)) := by omega
      refine ⟨farther, near, clears, fun p hp hp' => ?_⟩
      rcases Nat.lt_or_ge (dist o p) (dist o (moveCut clear f rest)) with lt | ge
      · exact ⟨g, (among g hg).1, (straddles_iff hc (by omega) (he g (among g hg).1)).mpr ⟨by omega, by omega⟩⟩
      · exact least p ge hp'

end

/-- Settles O28: the commit of an expiry and of a planner check is `State.decided`; the decisions are `State.decisions`,
`State.cutout_of_pick` and `settleCut_settles`. -/
theorem deadlineExpiryCommits : Obligations.DeadlineExpiryCommits := by
  refine ⟨fun s p settled raised piece hg hp room waits => State.deadlineExpiry_commits settled raised piece hg hp room waits,
    State.straddled_iff, State.decisions, fun s mode start hl => ⟨s.mem_cutoutFlaws_iff mode start hl, fun none => ?_,
      fun v hv least => State.cutout_of_pick hl hv least⟩,
    fun clear extents o x hc hx he => ?_, fun s p hg hp piece => ?_⟩
  · rw [State.cutoutStep, none]
  · obtain ⟨later, -, clears, least⟩ := settleCut_settles hc he extents.length x (by omega) (List.length_filter_le _ _)
    exact ⟨later, clears, least⟩
  · have conditions := State.normalConditions_iff (s := s) (p := p.start)
    refine ⟨fun h => State.plannerCheck_waits hg hp piece ?_, fun c settled clear decides room waits =>
      State.plannerCheck_commits hg hp piece (conditions.mpr ⟨settled, clear⟩) decides room waits⟩
    rw [← Bool.not_eq_true, conditions]
    rcases h with unsettled | unclear | rest
    · exact .inl fun h => unsettled h.1
    · exact .inl fun h => unclear h.2
    · exact .inr rest

end Sys2Proof.Machine
end

section
/-! PROOFS. The end of a line's analysis (O19). -/

namespace Sys2Proof.Machine

variable {s t u : State}

/-! ### What the steps of an analysis end leave as it is -/

/-- From `s` to `t` the line queue, the results of the line in analysis and the tables in force and staged are as they were. -/
structure State.SameLine (s t : State) : Prop where
  lineQueue : t.lcu.lineQueue = s.lcu.lineQueue
  counter : t.lcu.counter = s.lcu.counter
  stamps : t.lcu.fifo = s.lcu.fifo
  scan : t.fdu.scan = s.fdu.scan
  reference : t.fdu.reference = s.fdu.reference
  learnCount : t.fdu.learnCount = s.fdu.learnCount
  analysis : t.fdu.analysis = s.fdu.analysis
  columns : t.fdu.columns = s.fdu.columns
  detect : t.fdu.detect = s.fdu.detect
  stagedDetect : t.fdu.stagedDetect = s.fdu.stagedDetect
  stagedColumns : t.fdu.stagedColumns = s.fdu.stagedColumns
  stagedReference : t.fdu.stagedReference = s.fdu.stagedReference
  lines : t.sac.counters.lines = s.sac.counters.lines
  bridges : t.cdu.bridges = s.cdu.bridges
  flight : t.tru.flight = s.tru.flight

theorem State.SameLine.refl (s : State) : s.SameLine s := ⟨rfl, rfl, rfl, rfl, rfl, rfl, rfl, rfl, rfl, rfl, rfl, rfl, rfl, rfl, rfl⟩

theorem State.SameLine.trans (h : s.SameLine t) (h' : t.SameLine u) : s.SameLine u where
  lineQueue := h'.lineQueue.trans h.lineQueue
  counter := h'.counter.trans h.counter
  stamps := h'.stamps.trans h.stamps
  scan := h'.scan.trans h.scan
  reference := h'.reference.trans h.reference
  learnCount := h'.learnCount.trans h.learnCount
  analysis := h'.analysis.trans h.analysis
  columns := h'.columns.trans h.columns
  detect := h'.detect.trans h.detect
  stagedDetect := h'.stagedDetect.trans h.stagedDetect
  stagedColumns := h'.stagedColumns.trans h.stagedColumns
  stagedReference := h'.stagedReference.trans h.stagedReference
  lines := h'.lines.trans h.lines
  bridges := h'.bridges.trans h.bridges
  flight := h'.flight.trans h.flight

/-- A change of gaps, blobs, store, snapshot and planner, of entries, of own requests, of other counters and of the status. -/
theorem State.SameLine.of_units {gaps : List Gap} {blobs : List Blob} {last : Nat} {store : List Flaw}
    (lcu : t.lcu = { s.lcu with gaps := gaps }) (fdu : t.fdu = { s.fdu with blobs := blobs, lastBlobId := last, store := store })
    (cdu : t.cdu.bridges = s.cdu.bridges) (tru : t.tru.flight = s.tru.flight)
    (lines : t.sac.counters.lines = s.sac.counters.lines) : s.SameLine t where
  lineQueue := by rw [lcu]
  counter := by rw [lcu]
  stamps := by rw [lcu]
  scan := by rw [fdu]
  reference := by rw [fdu]
  learnCount := by rw [fdu]
  analysis := by rw [fdu]
  columns := by rw [fdu]
  detect := by rw [fdu]
  stagedDetect := by rw [fdu]
  stagedColumns := by rw [fdu]
  stagedReference := by rw [fdu]
  lines := lines
  bridges := cdu
  flight := tru

theorem State.Detects.sameLine (h : s.Detects t) : s.SameLine t :=
  .of_units h.lcu h.fdu (by rw [h.cdu]) (by rw [h.tru]) h.lines

theorem State.Plans.sameLine (h : s.Plans t) : s.SameLine t :=
  .of_units h.lcu h.fdu (by rw [h.cdu]) (by rw [h.tru]) h.lines

theorem State.openSuccessor_sameLine (stamp : Pos) (s : State) (b : Blob) : s.SameLine (s.openSuccessor stamp b) :=
  .of_units rfl rfl rfl rfl rfl

theorem State.linkLine_sameLine (stamp : Pos) (runs : List Run) (s : State) : s.SameLine (s.linkLine stamp runs) := by
  have reports : ∀ lost : Bool, s.SameLine (if lost then s.addLoss .blobTableFull (stampRange stamp s.fdu.detect.ldiv) else s) := by
    intro lost
    split
    · exact (State.addLoss_detects _ _ s).sameLine
    · exact .refl s
  have placed : ∀ (w : State) (blobs : List Blob) (last : Nat),
      w.SameLine { w with fdu.blobs := blobs, fdu.lastBlobId := last } := fun w blobs last => .of_units rfl rfl rfl rfl rfl
  unfold State.linkLine
  dsimp only
  refine State.SameLine.trans ?_ (foldl_related State.SameLine.refl State.SameLine.trans _ _ fun w b _ => w.openSuccessor_sameLine stamp b)
  exact ((reports _).trans (placed _ _ _)).trans (State.foldl_closeBlob_detects _ _).sameLine

theorem State.linkOrDiscard_sameLine (stamp : Pos) (runs : List Run) (s : State) : s.SameLine (s.linkOrDiscard stamp runs) := by
  unfold State.linkOrDiscard
  split
  · have discards : ∀ (lies : Bool) (g : Gap), s.SameLine (if lies then s.addGap g else s) := by
      intro lies g
      split
      · exact .of_units rfl rfl rfl rfl rfl
      · exact .refl s
    exact (discards _ _).trans (State.linkLine_sameLine _ _ _)
  · exact State.linkLine_sameLine _ _ _

theorem State.openAtLine_sameLine (stamp : Pos) (s : State) : s.SameLine (s.openAtLine stamp) := by
  unfold State.openAtLine
  split
  · exact .of_units rfl rfl rfl rfl rfl
  · exact .of_units rfl rfl rfl rfl rfl

theorem State.takePendingSnapshot_sameLine (s : State) : s.SameLine s.takePendingSnapshot := by
  unfold State.takePendingSnapshot
  split
  · rw [State.takeSnapshot_eq]
    exact ⟨rfl, rfl, rfl, rfl, rfl, rfl, rfl, rfl, rfl, rfl, rfl, rfl, rfl, rfl, rfl⟩
  · exact .refl s

theorem State.plannerCheck_sameLine (s : State) : s.SameLine s.plannerCheck := by
  obtain ⟨p, hp⟩ := s.takePlannerTables_eq
  rw [State.plannerCheck, hp]
  have takes : s.SameLine { s with ppl := p } := .of_units rfl rfl rfl rfl rfl
  exact (takes.trans (State.checkLoop_plans _ _).sameLine).trans (State.computeProvisional_plans _).sameLine

theorem State.countRefresh_sameLine (s : State) : s.SameLine s.countRefresh := by
  unfold State.countRefresh
  dsimp only
  split
  · exact .refl s
  · split
    · obtain ⟨lcu, fdu, -, cdu, sac, -⟩ := State.requestStatus_units { s with csu.refreshCount := 0 }
      exact .of_units lcu fdu (congrArg Cdu.bridges cdu) (congrArg Tru.flight (State.requestStatus_tru _) :)
        (congrArg (fun a : Sac => a.counters.lines) sac)
    · exact .of_units rfl rfl rfl rfl rfl

/-- Tables take effect with neither a DETECT nor a COLUMN table nor a reference staged. -/
theorem State.takeFduTables_sameLine (hd : s.fdu.stagedDetect = none) (hc : s.fdu.stagedColumns = none)
    (hr : s.fdu.stagedReference = none) : s.SameLine s.takeFduTables := by
  have none : s.takeDetect = s := by rw [State.takeDetect, hd]
  rw [State.takeFduTables, none, State.takeColumnsClassReference, hc, hr]
  exact ⟨rfl, rfl, rfl, rfl, rfl, rfl, rfl, rfl, rfl, rfl, hc.symm, hr.symm, rfl, rfl, rfl⟩

theorem State.complete_sameLine (n : Fin 8) (st : Status) (v : Word) (s : State) : s.SameLine (s.complete n st v) := by
  obtain ⟨lcu, fdu, -, cdu, sac, -⟩ := s.complete_units n st v
  exact .of_units lcu fdu (congrArg Cdu.bridges cdu) (State.complete_tru_flight s n st v) (congrArg (fun a : Sac => a.counters.lines) sac)

theorem State.endStoppingIfDrained_sameLine (hd : s.fdu.stagedDetect = none) (hc : s.fdu.stagedColumns = none)
    (hr : s.fdu.stagedReference = none) : s.SameLine s.endStoppingIfDrained := by
  unfold State.endStoppingIfDrained
  split
  · rw [State.stoppingEnd_eq]
    have closes := s.blobsClosed_detects.sameLine
    have off : s.SameLine { s.blobsClosed with csu.inspection := .off } := closes.trans (.of_units rfl rfl rfl rfl rfl)
    have takes := off.trans (State.takeFduTables_sameLine (off.stagedDetect.trans hd) (off.stagedColumns.trans hc) (off.stagedReference.trans hr))
    unfold State.completeWith
    split
    · exact takes.trans (State.complete_sameLine _ _ _ _)
    · exact takes
  · exact .refl s

/-! ### The results of a line -/

/-- The line's results before its end is counted: the planner opened, the runs linked or discarded (R42, R43, R78). -/
def State.lineLinked (s : State) (l : Line) (mode : LineMode) : State :=
  let cols := columnsOf s.fdu.columns s.fdu.reference l.pixels
  State.linkOrDiscard l.stamp (lineRuns s.fdu.detect mode cols)
    (State.openAtLine l.stamp { s with fdu.reference := referenceAfter s.fdu.detect mode cols s.fdu.reference })

theorem State.lineLinked_sameLine (s : State) (l : Line) (mode : LineMode) :
    State.SameLine { s with
      fdu.reference := referenceAfter s.fdu.detect mode (columnsOf s.fdu.columns s.fdu.reference l.pixels) s.fdu.reference }
      (s.lineLinked l mode) :=
  (State.openAtLine_sameLine _ _).trans (State.linkOrDiscard_sameLine _ _ _)

/-- The line is counted and its end is the scan position (R21). -/
def State.lineCounted (s : State) (l : Line) (mode : LineMode) : State :=
  { s.lineLinked l mode with
    sac.counters.lines := satAdd max32 (s.lineLinked l mode).sac.counters.lines 1, fdu.scan := ahead l.stamp s.fdu.detect.ldiv }

/-- What the results of a line change, but for blobs, flaws, gaps and the open piece (R21, R29, R31). -/
def State.lineSettled (s : State) (l : Line) (mode : LineMode) (learnCount : Nat) : State :=
  { s with
    fdu.reference := referenceAfter s.fdu.detect mode (columnsOf s.fdu.columns s.fdu.reference l.pixels) s.fdu.reference
    fdu.scan := ahead l.stamp s.fdu.detect.ldiv, sac.counters.lines := satAdd max32 s.sac.counters.lines 1
    fdu.learnCount := learnCount }

theorem State.lineCounted_sameLine (s : State) (l : Line) (mode : LineMode) :
    (s.lineSettled l mode s.fdu.learnCount).SameLine (s.lineCounted l mode) := by
  have same := s.lineLinked_sameLine l mode
  exact { same with scan := rfl, lines := congrArg (satAdd max32 · 1) same.lines }

theorem State.lineResults_run_sameLine (s : State) (l : Line) :
    (s.lineSettled l .run s.fdu.learnCount).SameLine (s.lineResults l .run) := s.lineCounted_sameLine l .run

theorem State.lineResults_learn_sameLine (s : State) (l : Line) :
    (s.lineSettled l .learn (s.fdu.learnCount - 1)).SameLine (s.lineResults l .learn) := by
  have same := s.lineCounted_sameLine l .learn
  obtain ⟨w, hw⟩ : ∃ w, w = s.lineCounted l .learn := ⟨_, rfl⟩
  have steps : s.lineResults l .learn = w.learnLine l.stamp := by
    rw [hw]
    rfl
  rw [steps]
  rw [← hw] at same
  have count : w.fdu.learnCount = s.fdu.learnCount := same.learnCount
  unfold State.learnLine State.learnStep
  dsimp only
  split
  · next last => exact { same with learnCount := (count ▸ last : s.fdu.learnCount - 1 = 0).symm }
  · exact { same with learnCount := congrArg (· - 1) count }

/-! ### The next line -/

/-- With no DETECT table staged the line leaves the queue and the next begins, with no line discarded (R12, R20). -/
theorem State.nextLine_facts {l : Line} {rest : List Line} (hq : s.lcu.lineQueue = l :: rest) (hd : s.fdu.stagedDetect = none)
    (hc : s.fdu.stagedColumns = none) (hr : s.fdu.stagedReference = none) :
    ∃ a, State.SameLine { s with lcu.lineQueue := rest, fdu.analysis := a } s.nextLine
      ∧ (rest = [] → a = none) ∧ (rest ≠ [] → a.isSome = true) := by
  have tail : s.lcu.lineQueue.tail = rest := by rw [hq, List.tail_cons]
  obtain ⟨w, hw⟩ : ∃ w : State, w = { s with lcu.lineQueue := rest, fdu.analysis := none } := ⟨_, rfl⟩
  have begins : s.nextLine = w.beginAnalysis := by rw [State.nextLine, tail, hw]
  cases rest with
  | nil =>
    have still : w.beginAnalysis = w := by
      rw [hw]
      rfl
    rw [begins, still, hw]
    exact ⟨none, .refl _, fun _ => rfl, fun h => absurd rfl h⟩
  | cons l' rest =>
    have takes : w.SameLine w.takeFduTables :=
      State.takeFduTables_sameLine (by rw [hw]; exact hd) (by rw [hw]; exact hc) (by rw [hw]; exact hr)
    have keeps : ¬(w.takeFduTables.fdu.detect.linePx ≠ w.fdu.detect.linePx ∧ w.takeFduTables.csu.inspection ≠ .off) := fun h =>
      h.1 (congrArg Detect.linePx takes.detect)
    have next : w.beginAnalysis = { w.takeFduTables with fdu.analysis := some w.takeFduTables.fdu.mode } := by
      unfold State.beginAnalysis
      rw [show w.lcu.lineQueue = l' :: rest by rw [hw]]
      exact if_neg keeps
    rw [begins, next]
    refine ⟨some w.takeFduTables.fdu.mode, ?_, fun h => absurd h (List.cons_ne_nil _ _), fun _ => rfl⟩
    rw [hw] at takes ⊢
    exact { takes with analysis := rfl }

/-- Settles O19: after the line's results every step of the event keeps what the statement speaks of. -/
theorem analysisEndTakesEffect : Obligations.AnalysisEndTakesEffect := by
  intro s l rest mode settled queue analysis hd hc hr
  obtain ⟨w, hw⟩ : ∃ w, w = s.clearOutputs := ⟨_, rfl⟩
  have results : ∃ count, (w.lineSettled l mode count).SameLine (w.lineResults l mode)
      ∧ (mode = .learn → count = s.fdu.learnCount - 1) ∧ (mode = .run → count = s.fdu.learnCount) := by
    cases mode with
    | learn => exact ⟨_, w.lineResults_learn_sameLine l, fun _ => by rw [hw]; rfl, nofun⟩
    | run => exact ⟨_, w.lineResults_run_sameLine l, nofun, fun _ => by rw [hw]; rfl⟩
  obtain ⟨count, same, learns, runs⟩ := results
  obtain ⟨v, hv⟩ : ∃ v, v = ((w.lineResults l mode).takePendingSnapshot).plannerCheck.countRefresh := ⟨_, rfl⟩
  have kept : (w.lineSettled l mode count).SameLine v := by
    rw [hv]
    exact ((same.trans (State.takePendingSnapshot_sameLine _)).trans (State.plannerCheck_sameLine _)).trans (State.countRefresh_sameLine _)
  have queue' : v.lcu.lineQueue = l :: rest := kept.lineQueue.trans (by rw [hw]; exact queue)
  have hd' : v.fdu.stagedDetect = none := kept.stagedDetect.trans (by rw [hw]; exact hd)
  have hc' : v.fdu.stagedColumns = none := kept.stagedColumns.trans (by rw [hw]; exact hc)
  have hr' : v.fdu.stagedReference = none := kept.stagedReference.trans (by rw [hw]; exact hr)
  obtain ⟨a, next, noneLeft, someLeft⟩ := State.nextLine_facts queue' hd' hc' hr'
  have ends := State.endStoppingIfDrained_sameLine (next.stagedDetect.trans hd') (next.stagedColumns.trans hc') (next.stagedReference.trans hr')
  have last := next.trans ends
  have event : exec .analysisEnd s = .next (v.nextLine.endStoppingIfDrained).finish := by
    refine (command_next settled).trans ?_
    have effect : s.clearOutputs.analysisEnds = v.nextLine.endStoppingIfDrained := by
      unfold State.analysisEnds
      rw [show s.clearOutputs.fdu.analysis = some mode from analysis, show s.clearOutputs.lcu.lineQueue = l :: rest from queue, hv, hw]
    rw [effect]
  refine ⟨_, event, ?_⟩
  rw [State.finish_lcu, State.finish_fdu, State.finish_sac, State.finish_cdu, State.finish_tru_flight, last.lineQueue, last.scan, last.lines,
    last.reference, last.learnCount, last.analysis, last.counter, last.stamps, last.columns, last.detect, last.bridges, last.flight]
  dsimp only
  rw [kept.scan, kept.lines, kept.reference, kept.learnCount, kept.counter, kept.stamps, kept.columns, kept.detect, kept.bridges,
    kept.flight, hw]
  exact ⟨rfl, rfl, rfl, rfl, learns, runs, noneLeft, someLeft, rfl, rfl, rfl, rfl, rfl, rfl⟩

end Sys2Proof.Machine
end

section
/-! PROOFS. RESET_ENGINE (O60). -/

namespace Sys2Proof.Machine

variable {s t u : State}

/-! ### What abandoned entries leave of the channels -/

/-- A channel keeps its state, its operation and its place in its table; its queue, its activity and its counts may have changed. -/
def Channel.InPlace (c d : Channel) : Prop :=
  d.state = c.state ∧ d.index = c.index ∧ d.entry = c.entry ∧ d.remaining = c.remaining ∧ d.written = c.written ∧ d.table = c.table
    ∧ d.autoRestart = c.autoRestart ∧ d.restart = c.restart ∧ d.pendingOp = c.pendingOp

theorem Channel.InPlace.refl (c : Channel) : c.InPlace c := ⟨rfl, rfl, rfl, rfl, rfl, rfl, rfl, rfl, rfl⟩

theorem Channel.InPlace.trans {c d e : Channel} (h : c.InPlace d) (h' : d.InPlace e) : c.InPlace e := by
  obtain ⟨state, index, entry, remaining, written, table, auto, restart, op⟩ := h
  obtain ⟨state', index', entry', remaining', written', table', auto', restart', op'⟩ := h'
  exact ⟨state'.trans state, index'.trans index, entry'.trans entry, remaining'.trans remaining, written'.trans written, table'.trans table,
    auto'.trans auto, restart'.trans restart, op'.trans op⟩

theorem State.produce_inPlace (ch : Fin 3) (b : RecordBody) (s : State) : (s.channel ch).InPlace ((s.produce ch b).channel ch) := by
  rw [State.produce_channel]
  split
  · exact ⟨rfl, rfl, rfl, rfl, rfl, rfl, rfl, rfl, rfl⟩
  · exact ⟨rfl, rfl, rfl, rfl, rfl, rfl, rfl, rfl, rfl⟩

theorem State.entryOutcome_abandoned_channels (s : State) (e : Entry) :
    (∀ k, k ≠ 1 → (s.entryOutcome .abandoned e).channel k = s.channel k)
      ∧ (s.channel 1).InPlace ((s.entryOutcome .abandoned e).channel 1) := by
  unfold State.entryOutcome State.pieceOutcome
  exact ⟨fun k hk => State.produce_channel_ne { s with cdu.queue := _ } _ hk, State.produce_inPlace 1 _ { s with cdu.queue := _ }⟩

theorem State.foldl_abandoned_channels (l : List Entry) : ∀ s : State,
    (∀ k, k ≠ 1 → (l.foldl (State.entryOutcome .abandoned) s).channel k = s.channel k)
      ∧ (s.channel 1).InPlace ((l.foldl (State.entryOutcome .abandoned) s).channel 1) := by
  induction l with
  | nil => exact fun s => ⟨fun _ _ => rfl, .refl _⟩
  | cons e l ih =>
    intro s
    obtain ⟨others, place⟩ := s.entryOutcome_abandoned_channels e
    obtain ⟨others', place'⟩ := ih (s.entryOutcome .abandoned e)
    exact ⟨fun k hk => (others' k hk).trans (others k hk), place.trans place'⟩

theorem State.foldl_entryOutcome_keepsCauses (o : PieceOutcome) (l : List Entry) {i : Nat} : ∀ s : State,
    s.csu.causes.getLsbD i = true → (l.foldl (State.entryOutcome o) s).csu.causes.getLsbD i = true := by
  induction l with
  | nil => exact fun _ => id
  | cons e l ih => exact fun s h => ih _ (State.entryOutcome_keepsCauses h)

/-- Placing a record's write moves the activity of its channel alone (R143). -/
theorem State.writeNext_inPlace (ch : Fin 3) (s : State) : (s.channel ch).InPlace ((s.writeNext ch).channel ch) := by
  unfold State.writeNext
  dsimp only
  split
  · split
    · rw [State.place_channel, State.onChannel_channel_same]
      exact ⟨rfl, rfl, rfl, rfl, rfl, rfl, rfl, rfl, rfl⟩
    · exact .refl _
  · exact .refl _

/-- The close of an event that has changed one channel places at most that channel's next record (R132, R143). -/
theorem State.AtRest.finish_of_one_channel {ch : Fin 3} {p : List OwnRequest} {a : List Answer} (h : s.AtRest) (loads : t.noLoadDone = true)
    (others : ∀ k, k ≠ ch → t.channel k = s.channel k) (tru : t.tru = { s.tru with placing := p, answers := a }) :
    (∀ k, k ≠ ch → t.finish.channel k = s.channel k) ∧ (t.channel ch).InPlace (t.finish.channel ch)
      ∧ s.tru.own ++ s.tru.waiting <+: t.finish.tru.own ++ t.finish.tru.waiting
      ∧ t.finish.tru = { s.tru with
        own := t.finish.tru.own, waiting := t.finish.tru.waiting, placing := t.finish.tru.placing, answers := t.finish.tru.answers } := by
  have writes := State.writeNext_changes ch t
  rw [h.finish_of_others loads others (by rw [tru])]
  refine ⟨fun k hk => (writes.others k hk).trans (others k hk), State.writeNext_inPlace ch t, ?_, ?_⟩
  · rw [State.placeAll_own_waiting, writes.tru, tru]
    exact ⟨_, rfl⟩
  · rw [State.placeAll, writes.tru, tru]

/-! ### The tables -/

/-- With no open piece staged tables of the planner are in effect, and nothing is armed (R65, R99). -/
theorem State.takePlannerTables_of_idle (h : s.ppl.piece = none) : ∃ lmin lmax, s.takePlannerTables = { s with
    ppl.grade := s.ppl.stagedGrade.getD s.ppl.grade, ppl.stagedGrade := none
    ppl.product := s.ppl.stagedProduct.getD s.ppl.product, ppl.stagedProduct := none, ppl.lmin := lmin, ppl.lmax := lmax } := by
  have unarmed : ∀ t : State, t.ppl.piece = none → t.armDeadline = t := fun t ht => by rw [State.armDeadline, ht]
  unfold State.takePlannerTables
  dsimp only
  cases hg : s.ppl.stagedGrade with
  | none =>
    cases hp : s.ppl.stagedProduct with
    | none =>
      refine ⟨s.ppl.lmin, s.ppl.lmax, ?_⟩
      dsimp only
      rw [Option.getD_none, Option.getD_none, ← hg, ← hp]
    | some p =>
      refine ⟨shortest p.lengths, p.lengths.foldl max 0, ?_⟩
      dsimp only
      rw [Option.getD_none, ← hg]
      exact unarmed _ h
  | some g =>
    cases hp : s.ppl.stagedProduct with
    | none =>
      refine ⟨s.ppl.lmin, s.ppl.lmax, ?_⟩
      dsimp only
      rw [Option.getD_none, ← hp]
      rfl
    | some p =>
      refine ⟨shortest p.lengths, p.lengths.foldl max 0, ?_⟩
      exact unarmed _ h

/-- The staged tables of the LCU and the FDU are in effect (R5, R35 to R37, R57). -/
theorem State.takeFduTables_all (s : State) : ∃ d, s.takeFduTables = { s with
      lcu.divider := d
      fdu.detect := s.fdu.stagedDetect.getD s.fdu.detect, fdu.stagedDetect := none
      fdu.columns := s.fdu.stagedColumns.getD s.fdu.columns, fdu.stagedColumns := none
      fdu.classes := s.fdu.stagedClasses.getD s.fdu.classes, fdu.stagedClasses := none
      fdu.reference := s.fdu.stagedReference.getD s.fdu.reference, fdu.stagedReference := none }
    ∧ (s.fdu.stagedDetect = none → d = s.lcu.divider) := by
  unfold State.takeFduTables State.takeDetect
  cases hd : s.fdu.stagedDetect with
  | none =>
    refine ⟨s.lcu.divider, ?_, fun _ => rfl⟩
    dsimp only
    rw [Option.getD_none, ← hd]
    rfl
  | some t => exact ⟨_, rfl, nofun⟩

/-! ### The engine -/

theorem State.allDisabled_iff : s.allDisabled = true ↔ ∀ b, (s.bridge b).state = .disabled := by
  constructor
  · intro h b
    refine Decidable.byContradiction fun hb => ?_
    exact absurd ((State.allDisabled_of_enabled hb).symm.trans h) nofun
  · intro h
    rw [State.allDisabled, Bool.not_eq_true', List.any_eq_false]
    intro x hx
    obtain ⟨i, hi, rfl⟩ := List.getElem_of_mem hx
    rw [Vector.length_toList] at hi
    have disabled : (s.bridge ⟨i, hi⟩).state = .disabled := h ⟨i, hi⟩
    rw [Bridge.enabled, decide_eq_true_iff, Decidable.not_not]
    simpa [State.bridge] using disabled

/-- From IDLE a round begins at the lowest bridge not DISABLED, and with none the engine stays IDLE (R112). -/
theorem State.reviewEngine_of_idle (he : s.cdu.engine = .idle) (hl : s.cdu.loopPos = 0) (hg : s.cdu.gapRunning = false) :
    ∃ e, s.reviewEngine = { s with cdu.engine := e } ∧ ((∀ b, (s.bridge b).state = .disabled) → e = .idle)
      ∧ ∀ b, (s.bridge b).state ≠ .disabled → (∀ c, c < b → (s.bridge c).state = .disabled) → e = .pollXfer b false := by
  have review : s.reviewEngine = if s.allDisabled then s else s.startRound := by rw [State.reviewEngine, he]
  by_cases all : ∀ b, (s.bridge b).state = .disabled
  · refine ⟨.idle, ?_, fun _ => rfl, fun b hb => absurd (all b) hb⟩
    rw [review, if_pos (State.allDisabled_iff.mpr all), ← he]
  · obtain ⟨b, hb⟩ := Classical.not_forall.mp all
    obtain ⟨b, hb, lowest⟩ : ∃ b, (s.bridge b).state ≠ .disabled ∧ ∀ c, c < b → (s.bridge c).state = .disabled := by
      obtain ⟨b, hb, least⟩ := exists_least_fin (p := fun b => (s.bridge b).state ≠ .disabled) b.val b rfl hb
      exact ⟨b, hb, fun c hc => Decidable.not_not.mp (least c hc)⟩
    refine ⟨.pollXfer b false, ?_, fun h => absurd (h b) hb, fun c hc low => ?_⟩
    · rw [review, State.allDisabled_of_enabled hb, if_neg Bool.false_ne_true, State.startRound_of_lowest hb lowest, ← hl, ← hg]
    · rcases Nat.lt_trichotomy b.val c.val with lt | eq | gt
      · exact absurd (low b lt) hb
      · rw [Fin.ext eq]
      · exact absurd (lowest c gt) hc

/-! ### The dispatch unit -/

/-- From `s` to `t` the dispatch unit has been reset (R104, R110, R112, R123). -/
structure State.DispatchReset (s t : State) : Prop where
  lcu : t.lcu = s.lcu
  fdu : t.fdu = s.fdu
  ppl : t.ppl = s.ppl
  cdu : t.cdu = { s.cdu with
    queue := [], bridges := Vector.ofFn fun b : Fin 4 => (s.bridge b).atReset (s.cdu.mask.getLsbD b.val), engine := t.cdu.engine
    loopPos := 0, gapRunning := false, gapTime := 0, gapLen := 0, missTest := false, timeoutTest := false }
  idle : (∀ b, (t.bridge b).state = .disabled) → t.cdu.engine = .idle
  round : ∀ b, (t.bridge b).state ≠ .disabled → (∀ c, c < b → (t.bridge c).state = .disabled) → t.cdu.engine = .pollXfer b false
  tru : t.tru = { s.tru with placing := t.tru.placing }
  csu : t.csu = { s.csu with causes := t.csu.causes, statusWaiting := t.csu.statusWaiting }
  causes : ∀ i, s.csu.causes.getLsbD i = true → t.csu.causes.getLsbD i = true
  sac : t.sac = { s.sac with counters := t.sac.counters }
  none : s.cdu.queue = [] → t.sac = s.sac
  outcomes : s.cdu.queue ≠ [] → t.sac.counters.outcomes = bump s.sac.counters.outcomes 3 s.cdu.queue.length
  produced : (t.channel 1).produced = (s.channel 1).produced + BitVec.ofNat 32 s.cdu.queue.length
  others : ∀ k, k ≠ 1 → t.channel k = s.channel k
  place : (s.channel 1).InPlace (t.channel 1)

/-- Every entry has been ABANDONED (R123). -/
def State.abandoned (s : State) : State := s.cdu.queue.foldl (State.entryOutcome .abandoned) s

/-- The dispatch unit as RESET_ENGINE leaves it, before a round begins (R123). -/
def State.dispatchCleared (s : State) : State :=
  { s.abandoned with
    cdu.queue := []
    cdu.bridges := Vector.ofFn fun b : Fin 4 => (s.abandoned.bridge b).atReset (s.abandoned.cdu.mask.getLsbD b.val)
    cdu.engine := .idle, cdu.loopPos := 0, cdu.gapRunning := false, cdu.gapTime := 0, cdu.gapLen := 0
    cdu.missTest := false, cdu.timeoutTest := false }

theorem State.resetDispatch_reset (hs : s.cdu.stagedLink = none) (hn : s.cdu.newMask = none) : s.DispatchReset s.resetDispatch := by
  have books := State.foldl_entryOutcome_bookkeeps .abandoned s.cdu.queue s
  obtain ⟨others, place⟩ := State.foldl_abandoned_channels s.cdu.queue s
  have produced := State.foldl_entryOutcome_produced .abandoned s.cdu.queue s
  have causes := fun i => State.foldl_entryOutcome_keepsCauses .abandoned s.cdu.queue (i := i) s
  have none : s.cdu.queue = [] → s.abandoned = s := fun h => by rw [State.abandoned, h, List.foldl_nil]
  have outcomes : s.cdu.queue ≠ [] → s.abandoned.sac.counters.outcomes = bump s.sac.counters.outcomes 3 s.cdu.queue.length := fun h => by
    obtain ⟨e, l, hq⟩ := List.exists_cons_of_ne_nil h
    rw [State.abandoned, hq]
    exact State.foldl_entryOutcome_outcomes .abandoned l s e
  change State.Bookkeeps _ s.abandoned at books
  have cdu : s.dispatchCleared.cdu = { s.cdu with
      queue := [], bridges := Vector.ofFn fun b : Fin 4 => (s.bridge b).atReset (s.cdu.mask.getLsbD b.val), engine := .idle
      loopPos := 0, gapRunning := false, gapTime := 0, gapLen := 0, missTest := false, timeoutTest := false } := by
    rw [State.dispatchCleared]
    dsimp only [State.bridge]
    rw [books.cdu]
  have taken : s.dispatchCleared.takeLink = s.dispatchCleared := State.takeLink_of_none (by rw [cdu]; exact hs) (by rw [cdu]; exact hn)
  obtain ⟨e, review, idle, round⟩ := State.reviewEngine_of_idle (s := s.dispatchCleared) rfl rfl rfl
  have reset : s.resetDispatch = { s.dispatchCleared with cdu.engine := e } := by
    rw [← review, ← taken]
    rfl
  rw [reset]
  exact
    { lcu := books.lcu, fdu := books.fdu, ppl := books.ppl, tru := books.tru, csu := books.csu, causes := causes, sac := books.sac
      cdu := congrArg (fun c : Cdu => { c with engine := e }) cdu
      idle := idle, round := round, others := others, place := place, produced := produced, outcomes := outcomes
      none := fun h => (congrArg State.sac (none h) :) }

/-! ### Every block -/

theorem State.takePendingSnapshot_eq (s : State) : ∃ q, s.takePendingSnapshot = { s with fdu.snapshot := none, tru.placing := q } := by
  unfold State.takePendingSnapshot
  split
  · exact ⟨_, State.takeSnapshot_eq _ _⟩
  · next none => exact ⟨s.tru.placing, by rw [← none]⟩

/-- Capture, detection and planning as RESET_ENGINE leaves them, before staged tables of the LCU and the FDU take effect (R15, R22, R38, R58,
R102, R167). -/
def State.emptied (s : State) (lmin lmax : Nat) (q : List OwnRequest) : State :=
  { s with
    csu.inspection := .off
    lcu.fifo := [], lcu.lineQueue := [], lcu.gaps := [], lcu.assembly := none, lcu.resumeArmed := false
    fdu.analysis := none, fdu.learnCount := 0, fdu.blobs := [], fdu.store := [], fdu.snapshot := none
    ppl.piece := none, ppl.scanSeen := false, ppl.raisedAtOnce := false, ppl.provisional := none
    ppl.grade := s.ppl.stagedGrade.getD s.ppl.grade, ppl.stagedGrade := none
    ppl.product := s.ppl.stagedProduct.getD s.ppl.product, ppl.stagedProduct := none, ppl.lmin := lmin, ppl.lmax := lmax
    tru.placing := q }

theorem State.emptied_eq (s : State) :
    ∃ lmin lmax q, ({ s with csu.inspection := .off }.resetCapture).resetDetection.plannerIdle = s.emptied lmin lmax q := by
  obtain ⟨q, detected⟩ := State.takePendingSnapshot_eq
    { ({ s with csu.inspection := .off } : State).resetCapture with fdu.analysis := none, fdu.learnCount := 0, fdu.blobs := [], fdu.store := [] }
  obtain ⟨lmin, lmax, idle⟩ := State.takePlannerTables_of_idle (s :=
    { ({ s with csu.inspection := .off }.resetCapture).resetDetection with
      ppl.piece := none, ppl.scanSeen := false, ppl.raisedAtOnce := false, ppl.provisional := none }) rfl
  refine ⟨lmin, lmax, q, ?_⟩
  rw [State.plannerIdle, idle, State.resetDetection, detected]
  rfl

/-- What RESET_ENGINE makes of every block (R167). -/
theorem State.resetEngine_eq (hs : s.cdu.stagedLink = none) (hn : s.cdu.newMask = none) :
    ∃ lmin lmax q d r, (s.emptied lmin lmax q).DispatchReset r ∧ (s.fdu.stagedDetect = none → d = s.lcu.divider)
      ∧ s.resetEngine = { r with
        lcu.divider := d
        fdu.detect := s.fdu.stagedDetect.getD s.fdu.detect, fdu.stagedDetect := none
        fdu.columns := s.fdu.stagedColumns.getD s.fdu.columns, fdu.stagedColumns := none
        fdu.classes := s.fdu.stagedClasses.getD s.fdu.classes, fdu.stagedClasses := none
        fdu.reference := s.fdu.stagedReference.getD s.fdu.reference, fdu.stagedReference := none } := by
  obtain ⟨lmin, lmax, q, emptied⟩ := s.emptied_eq
  have reset : (s.emptied lmin lmax q).DispatchReset (s.emptied lmin lmax q).resetDispatch := State.resetDispatch_reset hs hn
  obtain ⟨d, tables, divider⟩ := State.takeFduTables_all (s.emptied lmin lmax q).resetDispatch
  refine ⟨lmin, lmax, q, d, _, reset, fun h => ?_, ?_⟩
  · rw [divider (by rw [reset.fdu]; exact h), reset.lcu]
    rfl
  · rw [State.resetEngine]
    dsimp only
    rw [emptied, tables, reset.fdu]
    rfl

/-- The body of RESET_ENGINE with no other command running (R159, R167). -/
theorem beginResetEngine_of_idle {n : Fin 8} {c : Command} (h : s.resetEngine.csu.running = []) :
    beginResetEngine n c s = s.resetEngine.complete n .ok 0 := by
  have stops : s.resetEngine.completeWith isStopping 0 = s.resetEngine := by
    rw [State.completeWith, State.runningWith, h]
    rfl
  rw [beginResetEngine, stops, State.completeLoads_of_noLoadDone (State.noLoadDone_of_no_load (by rw [h]; exact fun _ hr => absurd hr List.not_mem_nil))]

theorem Bridge.atReset_of_disabled {x : Bridge} (h : x.state = .disabled) (bit : Bool) : x.atReset bit = { x with misses := 0 } := by
  rw [Bridge.atReset, h]

/-- Settles O60: `State.resetEngine_eq`, and the close of the event, which places a record of channel 1 at most. -/
theorem resetEngine : Obligations.ResetEngine := by
  intro s n ready code hs hn
  have row : hasCode codeResetEngine (s.slot n).command = true := by
    rw [hasCode, code]
    rfl
  obtain ⟨w, hw⟩ : ∃ w, w = s.clearOutputs.takeCommand n := ⟨_, rfl⟩
  obtain ⟨lmin, lmax, q, d, r, reset, divider, effect⟩ := State.resetEngine_eq (s := w) (by rw [hw]; exact hs) (by rw [hw]; exact hn)
  obtain ⟨u, hu⟩ : ∃ u, u = w.resetEngine := ⟨_, rfl⟩
  rw [← hu] at effect
  have spares : w.SparesCommands u := by
    rw [effect]
    exact ⟨by rw [reset.csu]; rfl, by rw [reset.csu]; rfl, by rw [reset.csu]; rfl, by rw [reset.tru]; rfl, reset.causes⟩
  have alone : u.csu.running = [] := by
    rw [spares.running, hw]
    exact ready.2.2
  have runs : exec .resetEngine s = .next (u.complete n .ok 0).finish := by
    refine (command_of_ready (body := beginResetEngine) ready row).trans ?_
    rw [← hw, beginResetEngine_of_idle (by rw [← hu]; exact alone), ← hu]
  have completes : s.CompletesAs (u.complete n .ok 0).finish n .ok 0 := State.completesAs ready (by rw [← hw]; exact spares)
  obtain ⟨t, ht⟩ : ∃ t, t = (u.complete n .ok 0).finish := ⟨_, rfl⟩
  rw [← ht] at runs completes
  obtain ⟨lcu', fdu', ppl', cdu', sac', rou'⟩ := u.complete_units n .ok 0
  have lcu : t.lcu = { s.lcu with
      ltrig := false, fifo := [], lineQueue := [], gaps := [], assembly := none, resumeArmed := false, divider := d } := by
    rw [ht, State.finish_lcu, lcu', effect]
    dsimp only
    rw [reset.lcu, hw]
    rfl
  have fdu : t.fdu = { s.fdu with
      analysis := none, learnCount := 0, blobs := [], store := [], snapshot := none
      detect := s.fdu.stagedDetect.getD s.fdu.detect, stagedDetect := none
      columns := s.fdu.stagedColumns.getD s.fdu.columns, stagedColumns := none
      classes := s.fdu.stagedClasses.getD s.fdu.classes, stagedClasses := none
      reference := s.fdu.stagedReference.getD s.fdu.reference, stagedReference := none } := by
    rw [ht, State.finish_fdu, fdu', effect]
    dsimp only
    rw [reset.fdu, hw]
    rfl
  have ppl : t.ppl = { s.ppl with
      piece := none, scanSeen := false, raisedAtOnce := false, provisional := none
      grade := s.ppl.stagedGrade.getD s.ppl.grade, stagedGrade := none
      product := s.ppl.stagedProduct.getD s.ppl.product, stagedProduct := none, lmin := lmin, lmax := lmax } := by
    rw [ht, State.finish_ppl, ppl', effect]
    dsimp only
    rw [reset.ppl, hw]
    rfl
  have cduR : t.cdu = r.cdu := by rw [ht, State.finish_cdu, cdu', effect]
  have cdu : t.cdu = { s.cdu with
      queue := [], bridges := Vector.ofFn fun b : Fin 4 => (s.bridge b).atReset (s.cdu.mask.getLsbD b.val), engine := r.cdu.engine
      loopPos := 0, gapRunning := false, gapTime := 0, gapLen := 0, missTest := false, timeoutTest := false } := by
    rw [cduR, reset.cdu, hw]
    rfl
  have bridge : ∀ b, t.bridge b = (s.bridge b).atReset (s.cdu.mask.getLsbD b.val) := fun b => by
    rw [State.bridge, cdu]
    exact Vector.getElem_ofFn b.isLt
  have bridgeR : ∀ b, r.bridge b = t.bridge b := State.bridge_congr (congrArg Cdu.bridges cduR.symm)
  have sacR : t.sac = r.sac := by rw [ht, State.finish_sac, sac', effect]
  have sac : t.sac = { s.sac with counters := r.sac.counters } := by
    rw [sacR, reset.sac, hw]
    rfl
  have channelR : ∀ k, (u.complete n .ok 0).channel k = r.channel k := fun k => by
    rw [State.complete_channel, effect]
    rfl
  have truU : u.tru = { s.tru with placing := r.tru.placing, answers := [] } := by
    rw [effect]
    dsimp only
    rw [reset.tru, hw]
    rfl
  have tru := State.complete_tru n .ok 0 u
  rw [truU] at tru
  have closes := (State.closed_iff.mp (State.quiet_iff.mp ready.1).2).1.finish_of_one_channel (ch := 1)
    (State.noLoadDone_of_no_load (no_load_of_idle (by rw [State.complete_running, alone]; rfl)))
    (fun k hk => by rw [channelR, reset.others k hk, hw]; rfl) tru
  rw [← ht] at closes
  obtain ⟨others, placed, ownT, truT⟩ := closes
  have place : (s.channel 1).InPlace (t.channel 1) := by
    have atW := reset.place
    rw [hw] at atW
    exact Channel.InPlace.trans atW (channelR 1 ▸ placed)
  have produced : (t.channel 1).produced = (s.channel 1).produced + BitVec.ofNat 32 s.cdu.queue.length := by
    have adds := reset.produced
    rw [ht, State.finish_produced, channelR, adds, hw]
    rfl
  have inspection : t.csu.inspection = .off := by
    rw [ht, State.finish_csu_inspection, State.complete_csu_inspection, effect]
    dsimp only
    rw [reset.csu]
    rfl
  have kept : (∀ ch, (s.channel ch).InPlace (t.channel ch)) := fun ch => by
    by_cases h : ch = 1
    · exact h ▸ place
    · exact (others ch h) ▸ .refl _
  refine ⟨t, runs, completes, inspection, by rw [lcu], by rw [lcu], by rw [lcu], by rw [lcu], by rw [lcu], by rw [lcu], by rw [lcu],
    fun h => by rw [lcu, divider (by rw [hw]; exact h), hw]; rfl, by rw [fdu], by rw [fdu], by rw [fdu], by rw [fdu], by rw [fdu], by rw [fdu],
    by rw [fdu], by rw [fdu], by rw [fdu], by rw [fdu], by rw [fdu], by rw [fdu], by rw [fdu], by rw [fdu], by rw [fdu], by rw [ppl],
    by rw [ppl], by rw [ppl], by rw [ppl], by rw [ppl], by rw [ppl], by rw [ppl], by rw [ppl], by rw [cdu], by rw [cdu], by rw [cdu],
    by rw [cdu], by rw [cdu], by rw [cdu], by rw [cdu], fun b h => ?_, fun b h => ?_, fun h => ?_, fun b h low => ?_, fun h => ?_, fun h => ?_,
    produced, others, kept, by rw [sac], by rw [sac], by rw [sac], by rw [sac], by rw [sac], by rw [sac], by rw [sac], by rw [sac],
    by rw [sac], by rw [truT], by rw [truT], by rw [truT], by rw [truT], by rw [truT], by rw [truT], by rw [truT], by rw [truT], by rw [truT],
    ownT⟩
  · rw [bridge, Bridge.atReset_of_disabled h]
  · rw [bridge]
    generalize s.bridge b = x at h ⊢
    cases hx : x.state with
    | disabled => exact absurd hx h
    | busy tag piece =>
      rw [Bridge.atReset, hx]
      cases s.cdu.mask.getLsbD b.val
      · rfl
      · rfl
    | offline => rw [Bridge.atReset, hx]
    | idle => rw [Bridge.atReset, hx]
    | notReady => rw [Bridge.atReset, hx]
    | fault => rw [Bridge.atReset, hx]
  · rw [cduR]
    exact reset.idle fun b => by rw [bridgeR, h]
  · rw [cduR]
    exact reset.round b (by rw [bridgeR, h]; exact nofun) fun c hc => by rw [bridgeR, low c hc]
  · rw [sacR, reset.outcomes (by rw [hw]; exact h), hw]
    exact bump_same _ 3 _
  · rw [sacR, reset.none (by rw [hw]; exact h), hw]
    rfl

end Sys2Proof.Machine
end

section
/-! PROOFS. The accepted runs of a line (O17). -/

namespace Sys2Proof.Machine

/-- The classifications of a line by column index; none outside the line. -/
abbrev Classes := Nat → Option (Polarity × Bool)

/-- The columns `a` to `b` are a maximal stretch of candidates of one polarity (R27). -/
structure Stretch (f : Classes) (p : Polarity) (a b : Nat) : Prop where
  order : a ≤ b
  inside : ∀ i, a ≤ i → i ≤ b → ∃ x, f i = some (p, x)
  left : ∀ i, i + 1 = a → ∀ x, f i ≠ some (p, x)
  right : ∀ x, f (b + 1) ≠ some (p, x)

/-- The run is all candidates of its polarity, is maximal to the left, and is strong if it holds a strong candidate (R27). -/
structure Run.Grows (f : Classes) (r : Run) : Prop where
  order : r.first ≤ r.last
  inside : ∀ i, r.first ≤ i → i ≤ r.last → ∃ x, f i = some (r.polarity, x)
  left : ∀ i, i + 1 = r.first → ∀ x, f i ≠ some (r.polarity, x)
  strong : r.strong = true ↔ ∃ i, r.first ≤ i ∧ i ≤ r.last ∧ f i = some (r.polarity, true)

variable {f : Classes} {t : Detect}

theorem Run.Grows.stretch {r : Run} (h : r.Grows f) (right : ∀ x, f (r.last + 1) ≠ some (r.polarity, x)) :
    Stretch f r.polarity r.first r.last := ⟨h.order, h.inside, h.left, right⟩

/-- A maximal stretch that begins in a run that is maximal itself is that run. -/
theorem Run.Grows.unique {r : Run} (h : r.Grows f) (right : ∀ x, f (r.last + 1) ≠ some (r.polarity, x)) {p : Polarity} {a b : Nat}
    (s : Stretch f p a b) (ha : r.first ≤ a) (hl : a ≤ r.last) : r.first = a ∧ r.last = b ∧ r.polarity = p := by
  obtain ⟨x, hx⟩ := s.inside a (Nat.le_refl a) s.order
  obtain ⟨y, hy⟩ := h.inside a ha hl
  have same : r.polarity = p := by
    rw [hx] at hy
    exact (congrArg Prod.fst (Option.some.inj hy)).symm
  subst same
  refine ⟨?_, ?_, rfl⟩
  · refine Decidable.byContradiction fun hne => ?_
    obtain ⟨z, hz⟩ := h.inside (a - 1) (by omega) (by omega)
    exact s.left (a - 1) (by omega) z hz
  · rcases Nat.lt_trichotomy r.last b with lt | eq | gt
    · obtain ⟨z, hz⟩ := s.inside (r.last + 1) (by omega) (by omega)
      exact absurd hz (right z)
    · exact eq
    · obtain ⟨z, hz⟩ := h.inside (b + 1) (by have := s.order; omega) (by omega)
      exact absurd hz (s.right z)

theorem Column.newRun_grows {c : Column} {p : Polarity} {x : Bool} (hc : f c.index = some (p, x))
    (left : ∀ i, i + 1 = c.index → ∀ y, f i ≠ some (p, y)) : (c.newRun p x).Grows f where
  order := Nat.le_refl _
  inside i h h' := ⟨x, (Nat.le_antisymm h' h : i = c.index) ▸ hc⟩
  left := left
  strong := by
    constructor
    · exact fun h => ⟨c.index, Nat.le_refl _, Nat.le_refl _, hc.trans (by rw [show x = true from h]; rfl)⟩
    · rintro ⟨i, h, h', hi⟩
      have at_ : i = c.index := Nat.le_antisymm h' h
      rw [at_, hc] at hi
      exact (congrArg Prod.snd (Option.some.inj hi) :)

theorem Run.Grows.extend {r : Run} {c : Column} {x : Bool} (h : r.Grows f) (hi : r.last + 1 = c.index)
    (hc : f c.index = some (r.polarity, x)) : (r.extend c x).Grows f where
  order := Nat.le_trans (Nat.le_succ_of_le h.order) (Nat.le_of_eq hi)
  inside i h1 h2 := by
    rcases Nat.lt_or_ge r.last i with lt | ge
    · exact ⟨x, (Nat.le_antisymm h2 (by omega) : i = c.index) ▸ hc⟩
    · exact h.inside i h1 ge
  left := h.left
  strong := by
    change (r.strong || x) = true ↔ ∃ i, r.first ≤ i ∧ i ≤ c.index ∧ f i = some (r.polarity, true)
    rw [Bool.or_eq_true, h.strong]
    constructor
    · rintro (⟨i, h1, h2, hi'⟩ | hx)
      · exact ⟨i, h1, by omega, hi'⟩
      · exact ⟨c.index, by have := h.order; omega, Nat.le_refl _, hx ▸ hc⟩
    · rintro ⟨i, h1, h2, hi'⟩
      rcases Nat.lt_or_ge r.last i with lt | ge
      · have at_ : i = c.index := Nat.le_antisymm h2 (by omega)
        rw [at_, hc] at hi'
        exact .inr (congrArg Prod.snd (Option.some.inj hi') :)
      · exact .inl ⟨i, h1, ge, hi'⟩

/-- The runs of `l` are the maximal stretches from column `n` on, ascending (R27). -/
structure RunsFrom (f : Classes) (n : Nat) (l : List Run) : Prop where
  ascending : l.Pairwise fun a b => a.last < b.first
  runs : ∀ r ∈ l, n ≤ r.first ∧ r.Grows f ∧ Stretch f r.polarity r.first r.last
  complete : ∀ a b p, n ≤ a → Stretch f p a b → ∃ r ∈ l, r.first = a ∧ r.last = b ∧ r.polarity = p

/-- A run that is maximal goes before the runs behind it. -/
theorem RunsFrom.cons {r : Run} {l : List Run} {n : Nat} (h : r.Grows f) (right : ∀ x, f (r.last + 1) ≠ some (r.polarity, x))
    (next : ∀ a b p, r.last < a → a < n → ¬Stretch f p a b) (hn : r.last < n) (hl : RunsFrom f n l) : RunsFrom f r.first (r :: l) where
  ascending := List.pairwise_cons.mpr ⟨fun x hx => Nat.lt_of_lt_of_le hn (hl.runs x hx).1, hl.ascending⟩
  runs x hx := by
    rcases List.mem_cons.mp hx with rfl | hx
    · exact ⟨Nat.le_refl _, h, h.stretch right⟩
    · obtain ⟨first, grows, stretch⟩ := hl.runs x hx
      exact ⟨by have := h.order; omega, grows, stretch⟩
  complete a b p ha s := by
    rcases Nat.lt_or_ge r.last a with lt | ge
    · rcases Nat.lt_or_ge a n with lt' | ge'
      · exact absurd s (next a b p lt lt')
      · obtain ⟨x, hx, eqs⟩ := hl.complete a b p ge' s
        exact ⟨x, List.mem_cons_of_mem _ hx, eqs⟩
    · exact ⟨r, List.mem_cons_self, h.unique right s ha ge⟩

/-- With nothing classified at `n`, the stretches from `n` on begin behind it. -/
theorem RunsFrom.of_none {l : List Run} {n : Nat} (hn : f n = none) (hl : RunsFrom f (n + 1) l) : RunsFrom f n l where
  ascending := hl.ascending
  runs x hx := by
    obtain ⟨first, grows, stretch⟩ := hl.runs x hx
    exact ⟨by omega, grows, stretch⟩
  complete a b p ha s := by
    obtain ⟨x, hx⟩ := s.inside a (Nat.le_refl a) s.order
    have other : a ≠ n := fun e => by
      rw [e, hn] at hx
      exact absurd hx nofun
    exact hl.complete a b p (by omega) s

/-- Where the search stands before column `n`: the run that ends there, or none with nothing classified there. -/
def Pending (f : Classes) (n : Nat) : Option Run → Prop
  | none => ∀ i, i + 1 = n → f i = none
  | some r => r.Grows f ∧ r.last + 1 = n

/-- The column from which on the search still answers. -/
def pendingFrom (n : Nat) : Option Run → Nat
  | none => n
  | some r => r.first

section
variable {c : Column} {rest : List Column} {p : Polarity} {x : Bool}

theorem runsFrom_of_none (h : c.candidate t = none) (cur : Option Run) :
    runsFrom t cur (c :: rest) = cur.toList ++ runsFrom t none rest := by
  rw [runsFrom.eq_def]
  dsimp only
  rw [h]

theorem runsFrom_of_begins (h : c.candidate t = some (p, x)) : runsFrom t none (c :: rest) = runsFrom t (some (c.newRun p x)) rest := by
  rw [runsFrom.eq_def]
  dsimp only
  rw [h]

theorem runsFrom_of_run (h : c.candidate t = some (p, x)) (r : Run) : runsFrom t (some r) (c :: rest) =
    if r.polarity = p then runsFrom t (some (r.extend c x)) rest else r :: runsFrom t (some (c.newRun p x)) rest := by
  rw [runsFrom.eq_def]
  dsimp only
  rw [h]

end

theorem runsFrom_spec (cols : List Column) : ∀ (n : Nat) (cur : Option Run), cols.map Column.index = List.range' n cols.length →
    (∀ c ∈ cols, f c.index = c.candidate t) → (∀ i, n + cols.length ≤ i → f i = none) → Pending f n cur →
    RunsFrom f (pendingFrom n cur) (runsFrom t cur cols) := by
  have empty : ∀ n, (∀ i, n ≤ i → f i = none) → RunsFrom f n [] := fun n h =>
    { ascending := .nil
      runs := fun x hx => absurd hx List.not_mem_nil
      complete := fun a b p ha s => by
        obtain ⟨x, hx⟩ := s.inside a (Nat.le_refl a) s.order
        exact absurd (hx.symm.trans (h a ha)) nofun }
  induction cols with
  | nil =>
    intro n cur _ _ out pending
    have out : ∀ i, n ≤ i → f i = none := out
    cases cur with
    | none => exact empty n out
    | some r =>
      obtain ⟨grows, last⟩ := pending
      exact RunsFrom.cons grows (fun x => by rw [last, out n (Nat.le_refl n)]; exact nofun)
        (fun a b p h h' => by omega) (by omega) (empty n out)
  | cons c rest ih =>
    intro n cur hidx hf out pending
    rw [List.map_cons, List.length_cons, List.range'_succ, List.cons.injEq] at hidx
    obtain ⟨hc, hrest⟩ := hidx
    have hf' : ∀ c ∈ rest, f c.index = c.candidate t := fun d hd => hf d (List.mem_cons_of_mem _ hd)
    have out' : ∀ i, n + 1 + rest.length ≤ i → f i = none := fun i hi => out i (by rw [List.length_cons]; omega)
    have now : f n = c.candidate t := hc ▸ hf c List.mem_cons_self
    cases hcand : c.candidate t with
    | none =>
      have nothing : f n = none := now.trans hcand
      have behind : RunsFrom f n (runsFrom t none rest) :=
        (ih (n + 1) none hrest hf' out' fun i hi => (Nat.succ.inj hi) ▸ nothing).of_none nothing
      cases cur with
      | none =>
        rw [runsFrom_of_none hcand]
        exact behind
      | some r =>
        obtain ⟨grows, last⟩ := pending
        rw [runsFrom_of_none hcand]
        exact RunsFrom.cons grows (fun x => by rw [last, nothing]; exact nofun) (fun a b p h h' => by omega) (by omega) behind
    | some k =>
      obtain ⟨p, x⟩ := k
      have here : f c.index = some (p, x) := (hc ▸ now).trans hcand
      have begins : (∀ i, i + 1 = c.index → ∀ y, f i ≠ some (p, y)) → RunsFrom f n (runsFrom t (some (c.newRun p x)) rest) := fun left =>
        hc ▸ ih (n + 1) (some (c.newRun p x)) hrest hf' out' ⟨Column.newRun_grows here left, congrArg (· + 1) hc⟩
      cases cur with
      | none =>
        rw [runsFrom_of_begins hcand]
        exact begins fun i hi y => by rw [pending i (hi.trans hc)]; exact nofun
      | some r =>
        obtain ⟨grows, last⟩ := pending
        by_cases same : r.polarity = p
        · rw [runsFrom_of_run hcand, if_pos same]
          exact ih (n + 1) (some (r.extend c x)) hrest hf' out' ⟨grows.extend (last.trans hc.symm) (same ▸ here), congrArg (· + 1) hc⟩
        · rw [runsFrom_of_run hcand, if_neg same]
          have other : ∀ q y, f q = some (p, y) → ∀ z, f q ≠ some (r.polarity, z) := fun q y hq z hz => by
            rw [hq] at hz
            exact same (congrArg Prod.fst (Option.some.inj hz)).symm
          refine RunsFrom.cons grows (last ▸ hc ▸ other _ x here) (fun a b q h h' => by omega) (by omega) (begins fun i hi y hy => ?_)
          obtain ⟨z, hz⟩ := grows.inside r.last grows.order (Nat.le_refl _)
          exact other i y hy z ((by omega : i = r.last) ▸ hz)

/-! ### The line as classifications by column -/

/-- The classifications of a line whose columns begin at `k`. -/
def classesOf (t : Detect) (k : Nat) (cols : List Column) : Classes := fun i => if k ≤ i then (cols[i - k]?).bind (Column.candidate t) else none

section
variable {k : Nat} {cols : List Column} (hcols : cols.map Column.index = List.range' k cols.length)
include hcols

theorem index_getElem {j : Nat} (h : j < cols.length) : cols[j].index = k + j := by
  have at_ : (cols.map Column.index)[j]'(by rw [List.length_map]; exact h) = (List.range' k cols.length)[j]'(by rw [List.length_range']; exact h) := by
    simp only [hcols]
  rw [List.getElem_map, List.getElem_range', Nat.one_mul] at at_
  exact at_

theorem classesOf_index {c : Column} (hc : c ∈ cols) : classesOf t k cols c.index = c.candidate t := by
  obtain ⟨j, hj, rfl⟩ := List.getElem_of_mem hc
  rw [index_getElem hcols hj, classesOf, if_pos (Nat.le_add_right k j), Nat.add_sub_cancel_left, List.getElem?_eq_getElem hj]
  rfl

theorem exists_column {i : Nat} (h : k ≤ i) (h' : i < k + cols.length) : ∃ c ∈ cols, c.index = i :=
  ⟨cols[i - k]'(by omega), List.getElem_mem _, by rw [index_getElem hcols]; omega⟩

omit hcols in
theorem classesOf_outside {i : Nat} (h : i < k ∨ k + cols.length ≤ i) : classesOf t k cols i = none := by
  rw [classesOf]
  split
  · rw [List.getElem?_eq_none (by omega)]
    rfl
  · rfl

theorem classes_eq_some_iff {i : Nat} {v : Polarity × Bool} : classesOf t k cols i = some v ↔ ∃ c ∈ cols, c.index = i ∧ c.candidate t = some v := by
  constructor
  · intro h
    have inside : k ≤ i ∧ i < k + cols.length := by
      refine Decidable.byContradiction fun hi => ?_
      rw [classesOf_outside (by omega)] at h
      exact absurd h nofun
    obtain ⟨c, hc, rfl⟩ := exists_column hcols inside.1 inside.2
    exact ⟨c, hc, rfl, (classesOf_index hcols hc).symm.trans h⟩
  · rintro ⟨c, hc, rfl, h⟩
    exact (classesOf_index hcols hc).trans h

end

/-- The accepted runs are the accepted ones of the maximal stretches (R27, R28). -/
theorem runs_of_line {k : Nat} {cols : List Column} (hcols : cols.map Column.index = List.range' k cols.length) :
    RunsFrom (classesOf t k cols) k (runsFrom t none cols) :=
  runsFrom_spec cols k none hcols (fun _ hc => classesOf_index hcols hc) (fun _ hi => classesOf_outside (.inr hi))
    fun i hi => classesOf_outside (.inl (by omega))

/-- Settles O17. -/
theorem acceptedRunsAreMaximal : Obligations.AcceptedRunsAreMaximal := by
  intro t k cols hcols
  obtain ⟨ascending, runs, complete⟩ := runs_of_line (t := t) hcols
  refine ⟨ascending.sublist List.filter_sublist, fun r hr => ?_, fun a b p ha hab hb wide all strong ends => ?_⟩
  · obtain ⟨mem, accepted⟩ := List.mem_filter.mp hr
    obtain ⟨-, grows, stretch⟩ := runs r mem
    obtain ⟨isStrong, wide⟩ := Bool.and_eq_true_iff.mp accepted
    obtain ⟨i, h1, h2, hi⟩ := grows.strong.mp isStrong
    obtain ⟨c, hc, rfl, cand⟩ := (classes_eq_some_iff hcols).mp hi
    refine ⟨grows.order, of_decide_eq_true wide, fun d hd h1 h2 => ?_, ⟨c, hc, h1, h2, cand⟩, fun d hd h x hx => ?_⟩
    · rw [← classesOf_index hcols hd]
      exact grows.inside _ h1 h2
    · rw [← classesOf_index hcols hd] at hx
      rcases h with h | h
      · exact stretch.left _ h x hx
      · exact stretch.right x (h ▸ hx)
  · have s : Stretch (classesOf t k cols) p a b :=
      { order := hab
        inside := fun i h1 h2 => by
          obtain ⟨c, hc, rfl⟩ := exists_column hcols (by omega : k ≤ i) (by omega)
          rw [classesOf_index hcols hc]
          exact all c hc h1 h2
        left := fun i hi x hx => by
          obtain ⟨c, hc, rfl, cand⟩ := (classes_eq_some_iff hcols).mp hx
          exact ends c hc (.inl hi) x cand
        right := fun x hx => by
          obtain ⟨c, hc, index, cand⟩ := (classes_eq_some_iff hcols).mp hx
          exact ends c hc (.inr index) x cand }
    obtain ⟨r, hr, rfl, rfl, rfl⟩ := complete a b p ha s
    obtain ⟨-, grows, -⟩ := runs r hr
    obtain ⟨c, hc, h1, h2, cand⟩ := strong
    have isStrong : r.strong = true := grows.strong.mpr ⟨c.index, h1, h2, (classesOf_index hcols hc).trans cand⟩
    exact ⟨r, List.mem_filter.mpr ⟨hr, Bool.and_eq_true_iff.mpr ⟨isStrong, decide_eq_true wide⟩⟩, rfl, rfl, rfl⟩

end Sys2Proof.Machine
end

section
/-! PROOFS. The gap list (O14): seen from a position, ranges are intervals of distances. -/

namespace Sys2Proof.Machine

/-! ### Ranges as intervals -/

section
variable {o e : Pos} {g h x : Gap}

/-- Where the range begins, seen from `o`. -/
def Gap.lo (o : Pos) (g : Gap) : Nat := dist o g.start

/-- Where the range ends, seen from `o`. -/
def Gap.hi (o : Pos) (g : Gap) : Nat := dist o g.start + g.length

/-- The range is not empty and ends within half the ribbon coordinate from `o` on. -/
def Gap.Seen (o : Pos) (g : Gap) : Prop := g.lo o < g.hi o ∧ g.hi o < 2 ^ 31

theorem Gap.seen_iff : g.Seen o ↔ g.length ≠ 0 ∧ dist o g.start + g.length < 2 ^ 31 := by
  rw [Gap.Seen, Gap.lo, Gap.hi]
  omega

theorem Gap.seen_of_apart (h : GapsApart o [g]) : g.Seen o :=
  Gap.seen_iff.mpr ⟨h.filled g (List.mem_singleton_self g), h.near g (List.mem_singleton_self g)⟩

theorem Gap.Seen.stop (h : g.Seen o) : dist o g.stop = g.hi o := by
  have near := h.2
  rw [Gap.hi] at near
  exact dist_ahead (by omega)

theorem reaches_iff_dist_le {a b : Pos} (ha : dist o a < 2 ^ 31) (hb : dist o b < 2 ^ 31) : reaches a b = true ↔ dist o a ≤ dist o b := by
  rw [reaches_iff]
  unfold dist at *
  bv_omega

theorem Gap.Seen.lo_lt (h : g.Seen o) : dist o g.start < 2 ^ 31 := Nat.lt_trans h.1 h.2

theorem Gap.Seen.stop_lt (h : g.Seen o) : dist o g.stop < 2 ^ 31 := h.stop ▸ h.2

theorem Gap.touches_iff (hg : g.Seen o) (hh : h.Seen o) : g.touches h = true ↔ g.lo o ≤ h.hi o ∧ h.lo o ≤ g.hi o := by
  rw [Gap.touches, Bool.and_eq_true, reaches_iff_dist_le hg.lo_lt hh.stop_lt, reaches_iff_dist_le hh.lo_lt hg.stop_lt, hg.stop, hh.stop]
  rfl

theorem Gap.between_seen {a b : Pos} (hab : dist o a < dist o b) (hb : dist o b < 2 ^ 31) :
    (Gap.between a b).lo o = dist o a ∧ (Gap.between a b).hi o = dist o b := by
  refine ⟨rfl, ?_⟩
  rw [Gap.hi, Gap.between]
  unfold dist at *
  bv_omega

/-- The hull reaches from the earlier start to the later end. -/
theorem Gap.hull_lo_hi (hg : g.Seen o) (hh : h.Seen o) :
    (g.hull h).lo o = min (g.lo o) (h.lo o) ∧ (g.hull h).hi o = max (g.hi o) (h.hi o) := by
  have start : dist o (earlierOf g.start h.start) = min (g.lo o) (h.lo o) := by
    have order := before_iff_dist_lt hh.lo_lt hg.lo_lt
    rw [earlierOf]
    split
    · next hb => exact (Nat.min_eq_right (Nat.le_of_lt (order.mp hb))).symm
    · next hb => exact (Nat.min_eq_left (Nat.not_lt.mp fun h' => hb (order.mpr h'))).symm
  have stop : dist o (laterOf g.stop h.stop) = max (g.hi o) (h.hi o) := by
    rw [dist_laterOf hg.stop_lt hh.stop_lt, hg.stop, hh.stop]
  have bounds := And.intro hg hh
  unfold Gap.Seen at bounds
  rw [Gap.hull, ← start, ← stop]
  exact Gap.between_seen (by omega) (by omega)

theorem Gap.hull_seen (hg : g.Seen o) (hh : h.Seen o) : (g.hull h).Seen o := by
  obtain ⟨lo, hi⟩ := Gap.hull_lo_hi hg hh
  unfold Gap.Seen at *
  omega

/-- The range covers the count `k` from `o` on. -/
def Gap.Covers (o : Pos) (g : Gap) (k : Nat) : Prop := g.lo o ≤ k ∧ k < g.hi o

theorem gapsCover_cons {l : List Gap} {k : Nat} : gapsCover o (g :: l) k ↔ g.Covers o k ∨ gapsCover o l k := by
  simp only [gapsCover, List.mem_cons, exists_eq_or_imp]
  rfl

theorem gapsCover_perm {l m : List Gap} (p : l.Perm m) {k : Nat} : gapsCover o l k ↔ gapsCover o m k := by
  simp only [gapsCover, p.mem_iff]

/-! ### Insertion -/

theorem gapInsert_perm (g : Gap) (l : List Gap) : (gapInsert g l).Perm (g :: l) := by
  induction l with
  | nil => exact .refl _
  | cons h l ih =>
    unfold gapInsert
    split
    · exact .refl _
    · exact (ih.cons h).trans (.swap g h l)

/-- The ranges of the list, each ending before the next begins. -/
def Separate (o : Pos) (l : List Gap) : Prop := (∀ g ∈ l, g.Seen o) ∧ l.Pairwise fun g h => g.hi o < h.lo o

theorem gapsApart_iff {l : List Gap} : GapsApart o l ↔ Separate o l := by
  constructor
  · exact fun h => ⟨fun g hg => Gap.seen_iff.mpr ⟨h.filled g hg, h.near g hg⟩, h.apart⟩
  · rintro ⟨seen, apart⟩
    exact ⟨fun g hg => (Gap.seen_iff.mp (seen g hg)).1, fun g hg => (Gap.seen_iff.mp (seen g hg)).2, apart⟩

/-- A range apart from every range of the list is inserted in start order (R16). -/
theorem Separate.insert {l : List Gap} (hl : Separate o l) (hg : g.Seen o) (apart : ∀ h ∈ l, h.hi o < g.lo o ∨ g.hi o < h.lo o) :
    Separate o (gapInsert g l) := by
  refine ⟨fun x hx => ?_, ?_⟩
  · rcases List.mem_cons.mp ((gapInsert_perm g l).mem_iff.mp hx) with rfl | hx
    · exact hg
    · exact hl.1 x hx
  · induction l with
    | nil => exact List.pairwise_singleton _ _
    | cons h l ih =>
      obtain ⟨seen, pairwise⟩ := hl
      obtain ⟨first, rest⟩ := List.pairwise_cons.mp pairwise
      have hh := seen h List.mem_cons_self
      have side := apart h List.mem_cons_self
      have order := before_iff_dist_lt hg.lo_lt hh.lo_lt
      change before g.start h.start = true ↔ g.lo o < h.lo o at order
      have bounds := And.intro hg.1 hh.1
      unfold gapInsert
      split
      · next hb =>
        have lt := order.mp hb
        refine List.pairwise_cons.mpr ⟨fun x hx => ?_, pairwise⟩
        rcases List.mem_cons.mp hx with rfl | hx
        · omega
        · have := first x hx
          omega
      · next hb =>
        have ge : ¬g.lo o < h.lo o := fun h' => hb (order.mpr h')
        have seen' : ∀ x ∈ l, x.Seen o := fun x hx => seen x (List.mem_cons_of_mem _ hx)
        refine List.pairwise_cons.mpr ⟨fun x hx => ?_, ih ⟨seen', rest⟩ fun x hx => apart x (List.mem_cons_of_mem _ hx)⟩
        rcases List.mem_cons.mp ((gapInsert_perm g l).mem_iff.mp hx) with rfl | hx
        · omega
        · exact first x hx

/-! ### The merge -/

/-- What the hull of a range and the ranges that touch it is: within bounds that hold for all of them, and their union (R16). -/
theorem foldl_hull (hg : g.Seen o) (l : List Gap) (hl : ∀ h ∈ l, h.Seen o ∧ g.touches h = true) :
    ∀ x : Gap, x.Seen o → x.lo o ≤ g.lo o → g.hi o ≤ x.hi o →
      (l.foldl Gap.hull x).Seen o
      ∧ (∀ k, (l.foldl Gap.hull x).Covers o k ↔ x.Covers o k ∨ gapsCover o l k)
      ∧ (∀ b, b < x.lo o → (∀ h ∈ l, b < h.lo o) → b < (l.foldl Gap.hull x).lo o)
      ∧ ∀ b, x.hi o < b → (∀ h ∈ l, h.hi o < b) → (l.foldl Gap.hull x).hi o < b := by
  induction l with
  | nil =>
    intro x hx _ _
    refine ⟨hx, fun k => ⟨.inl, ?_⟩, fun b h _ => h, fun b h _ => h⟩
    rintro (h | ⟨y, hy, -⟩)
    · exact h
    · exact absurd hy List.not_mem_nil
  | cons h l ih =>
    intro x hx lo hi
    obtain ⟨hh, touches⟩ := hl h List.mem_cons_self
    have meets := (Gap.touches_iff hg hh).mp touches
    obtain ⟨hullLo, hullHi⟩ := Gap.hull_lo_hi hx hh
    obtain ⟨seen, covers, below, above⟩ :=
      ih (fun y hy => hl y (List.mem_cons_of_mem _ hy)) (x.hull h) (Gap.hull_seen hx hh) (by omega) (by omega)
    rw [List.foldl_cons]
    refine ⟨seen, fun k => ?_, fun b hb hall => ?_, fun b hb hall => ?_⟩
    · have union : (x.hull h).Covers o k ↔ x.Covers o k ∨ h.Covers o k := by
        unfold Gap.Covers
        have := hx.1
        have := hh.1
        omega
      rw [covers, union, gapsCover_cons, or_assoc]
    · refine below b ?_ fun y hy => hall y (List.mem_cons_of_mem _ hy)
      have := hall h List.mem_cons_self
      omega
    · refine above b ?_ fun y hy => hall y (List.mem_cons_of_mem _ hy)
      have := hall h List.mem_cons_self
      omega

theorem gapsCover_append {l m : List Gap} {k : Nat} : gapsCover o (l ++ m) k ↔ gapsCover o l k ∨ gapsCover o m k := by
  simp only [gapsCover, List.mem_append, or_and_right, exists_or]

/-- A range absorbed by a list of separate ranges: the list stays separate, and covers just what it covered and the range (R16). -/
theorem Separate.absorb {l : List Gap} (hl : Separate o l) (hg : g.Seen o) :
    Separate o (gapAbsorb g l) ∧ ∀ k, gapsCover o (gapAbsorb g l) k ↔ gapsCover o l k ∨ g.Covers o k := by
  have touching : ∀ h ∈ l.filter g.touches, h.Seen o ∧ g.touches h = true := fun h hh =>
    ⟨hl.1 h (List.mem_filter.mp hh).1, (List.mem_filter.mp hh).2⟩
  obtain ⟨seen, covers, below, above⟩ := foldl_hull hg _ touching g hg (Nat.le_refl _) (Nat.le_refl _)
  have rest : Separate o (l.filter fun h => !g.touches h) := ⟨fun h hh => hl.1 h (List.mem_filter.mp hh).1, hl.2.sublist List.filter_sublist⟩
  have ordered : ∀ ⦃h⦄, h ∈ l → ∀ ⦃m⦄, m ∈ l → h = m ∨ h.hi o < m.lo o ∨ m.hi o < h.lo o :=
    List.Pairwise.forall_of_forall_of_flip (fun h _ => .inl rfl) (hl.2.imp fun lt => .inr (.inl lt)) (hl.2.imp fun lt => .inr (.inr lt))
  have apart : ∀ h ∈ l.filter (fun h => !g.touches h),
      h.hi o < ((l.filter g.touches).foldl Gap.hull g).lo o ∨ ((l.filter g.touches).foldl Gap.hull g).hi o < h.lo o := by
    intro h hh
    obtain ⟨mem, clear⟩ := List.mem_filter.mp hh
    have hseen := hl.1 h mem
    have off : ¬(g.lo o ≤ h.hi o ∧ h.lo o ≤ g.hi o) := fun e => by
      rw [(Gap.touches_iff hg hseen).mpr e] at clear
      exact absurd clear nofun
    have aside : ∀ m ∈ l.filter g.touches, (h.hi o < m.lo o ∨ m.hi o < h.lo o) ∧ g.lo o ≤ m.hi o ∧ m.lo o ≤ g.hi o := by
      intro m hm
      obtain ⟨mem', touches⟩ := List.mem_filter.mp hm
      have meets := (Gap.touches_iff hg (hl.1 m mem')).mp touches
      rcases ordered mem mem' with rfl | order
      · exact absurd meets off
      · exact ⟨order, meets⟩
    have width := hseen.1
    rcases Nat.lt_or_ge (h.hi o) (g.lo o) with before | after
    · refine .inl (below _ before fun m hm => ?_)
      have := aside m hm
      omega
    · refine .inr (above _ (by omega) fun m hm => ?_)
      have := aside m hm
      omega
  refine ⟨rest.insert seen apart, fun k => ?_⟩
  have parts : gapsCover o l k ↔ gapsCover o (l.filter g.touches) k ∨ gapsCover o (l.filter fun h => !g.touches h) k := by
    rw [← gapsCover_append]
    exact (gapsCover_perm (List.filter_append_perm g.touches l)).symm
  rw [gapAbsorb, gapsCover_perm (gapInsert_perm _ _), gapsCover_cons, covers, parts]
  exact ⟨fun h => by grind, fun h => by grind⟩

/-! ### Adding a range -/

theorem gapAdd_of_absorbed {l : List Gap} (hg : g.length ≠ 0) (h : l.length < 32 ∨ ∃ x ∈ l, g.touches x = true) :
    gapAdd l g = gapAbsorb g l := by
  have absorbed : (l.any g.touches || decide (l.length < gapCapacity)) = true := by
    rw [Bool.or_eq_true, decide_eq_true_iff, List.any_eq_true]
    exact h.symm
  rw [gapAdd, if_neg hg, if_pos absorbed]

theorem gapAdd_of_full {l : List Gap} {x : Gap} (hg : g.length ≠ 0) (full : l.length = 32) (clear : ∀ h ∈ l, g.touches h = false)
    (last : l.getLast? = some x) : gapAdd l g = gapAbsorb (x.hull g) l.dropLast := by
  have needs : ¬(l.any g.touches || decide (l.length < gapCapacity)) = true := by
    rw [Bool.or_eq_true, decide_eq_true_iff, List.any_eq_true, full]
    rintro (⟨h, mem, touches⟩ | lt)
    · exact absurd ((clear h mem).symm.trans touches) nofun
    · exact absurd lt (Nat.lt_irrefl 32)
  rw [gapAdd, if_neg hg, if_neg needs, last]

theorem gapAbsorb_perm_of_clear {l : List Gap} (clear : ∀ h ∈ l, g.touches h = false) : (gapAbsorb g l).Perm (g :: l) := by
  have none : l.filter g.touches = [] := List.filter_eq_nil_iff.mpr fun h hh => by rw [clear h hh]; exact Bool.false_ne_true
  have all : l.filter (fun h => !g.touches h) = l := List.filter_eq_self.mpr fun h hh => by rw [clear h hh]; rfl
  rw [gapAbsorb, none, all]
  exact gapInsert_perm g l

/-- With the last of 32 separate ranges widened to the added one, the list covers what lies between them too (R18). -/
theorem Separate.add_of_full {l : List Gap} (hl : Separate o l) (hg : g.Seen o) (full : l.length = 32)
    (clear : ∀ h ∈ l, g.touches h = false) (last : l.getLast? = some x) :
    Separate o (gapAdd l g) ∧ ∀ k, gapsCover o (gapAdd l g) k ↔
      gapsCover o l k ∨ (min (x.lo o) (g.lo o) ≤ k ∧ k < max (x.hi o) (g.hi o)) := by
  have split : l = l.dropLast ++ [x] := eq_dropLast_append last
  have hx : x.Seen o := hl.1 x (List.mem_of_getLast? last)
  have init : Separate o l.dropLast := ⟨fun h hh => hl.1 h (List.dropLast_subset l hh), hl.2.sublist (List.dropLast_sublist l)⟩
  obtain ⟨hullLo, hullHi⟩ := Gap.hull_lo_hi hx hg
  obtain ⟨separate, covers⟩ := init.absorb (Gap.hull_seen hx hg)
  rw [gapAdd_of_full (Gap.seen_iff.mp hg).1 full clear last]
  refine ⟨separate, fun k => ?_⟩
  have whole : gapsCover o l k ↔ gapsCover o l.dropLast k ∨ x.Covers o k := by
    refine (iff_of_eq (congrArg (gapsCover o · k) split)).trans ?_
    rw [gapsCover_append, gapsCover_cons]
    exact or_congr_right ⟨fun h => h.elim id fun ⟨y, hy, _⟩ => absurd hy List.not_mem_nil, .inl⟩
  have hull : (x.hull g).Covers o k ↔ min (x.lo o) (g.lo o) ≤ k ∧ k < max (x.hi o) (g.hi o) := by
    rw [Gap.Covers, hullLo, hullHi]
  have inside : x.Covers o k → (x.hull g).Covers o k := fun h => by
    unfold Gap.Covers at h ⊢
    omega
  rw [covers, whole, ← hull]
  grind

/-! ### The clip -/

theorem Gap.clip_iff (hg : g.Seen o) (he : dist o e < 2 ^ 31) : g.clip e = some x ↔
    dist o e < g.hi o ∧ x = if g.lo o < dist o e then Gap.between e g.stop else g := by
  have ends : reaches g.stop e = true ↔ g.hi o ≤ dist o e := by rw [reaches_iff_dist_le hg.stop_lt he, hg.stop]
  have begins : before g.start e = true ↔ g.lo o < dist o e := before_iff_dist_lt hg.lo_lt he
  unfold Gap.clip
  simp only [ends, begins]
  split
  · exact ⟨nofun, fun h => by omega⟩
  · split
    · exact ⟨fun h => ⟨by omega, (Option.some.inj h).symm⟩, fun h => congrArg some h.2.symm⟩
    · exact ⟨fun h => ⟨by omega, (Option.some.inj h).symm⟩, fun h => congrArg some h.2.symm⟩

/-- A clipped range ends where it did and begins no earlier than `e` (R19). -/
theorem Gap.clip_lo_hi (hg : g.Seen o) (he : dist o e < 2 ^ 31) (h : g.clip e = some x) :
    x.lo o = max (g.lo o) (dist o e) ∧ x.hi o = g.hi o ∧ x.Seen o := by
  obtain ⟨past, rfl⟩ := (Gap.clip_iff hg he).mp h
  split
  · next starts =>
    obtain ⟨lo, hi⟩ := Gap.between_seen (o := o) (a := e) (b := g.stop) (by rw [hg.stop]; exact past) hg.stop_lt
    rw [hg.stop] at hi
    refine ⟨lo.trans (Nat.max_eq_right (Nat.le_of_lt starts)).symm, hi, ?_⟩
    have := hg.2
    unfold Gap.Seen
    omega
  · next starts => exact ⟨(Nat.max_eq_left (Nat.not_lt.mp starts)).symm, rfl, hg⟩

theorem Separate.clip {l : List Gap} (hl : Separate o l) (he : dist o e < 2 ^ 31) :
    Separate o (gapClip e l) ∧ ∀ k, gapsCover o (gapClip e l) k ↔ gapsCover o l k ∧ dist o e ≤ k := by
  have source : ∀ {x}, x ∈ gapClip e l ↔ ∃ g ∈ l, g.clip e = some x := List.mem_filterMap
  refine ⟨⟨fun x hx => ?_, ?_⟩, fun k => ⟨?_, ?_⟩⟩
  · obtain ⟨g, hg, clips⟩ := source.mp hx
    exact (Gap.clip_lo_hi (hl.1 g hg) he clips).2.2
  · refine List.pairwise_filterMap.mpr (hl.2.imp_of_mem fun {g h} hg hh lt x hx y hy => ?_)
    obtain ⟨-, hi, -⟩ := Gap.clip_lo_hi (hl.1 g hg) he hx
    obtain ⟨lo, -, -⟩ := Gap.clip_lo_hi (hl.1 h hh) he hy
    omega
  · rintro ⟨x, hx, cover⟩
    obtain ⟨g, hg, clips⟩ := source.mp hx
    obtain ⟨lo, hi, -⟩ := Gap.clip_lo_hi (hl.1 g hg) he clips
    change x.lo o ≤ k ∧ k < x.hi o at cover
    exact ⟨⟨g, hg, (by omega : g.lo o ≤ k), (by omega : k < g.hi o)⟩, by omega⟩
  · rintro ⟨⟨g, hg, cover⟩, past⟩
    change g.lo o ≤ k ∧ k < g.hi o at cover
    obtain ⟨x, clips⟩ : ∃ x, g.clip e = some x := ⟨_, (Gap.clip_iff (hl.1 g hg) he).mpr ⟨by omega, rfl⟩⟩
    obtain ⟨lo, hi, -⟩ := Gap.clip_lo_hi (hl.1 g hg) he clips
    exact ⟨x, source.mpr ⟨g, hg, clips⟩, (by omega : x.lo o ≤ k), (by omega : k < x.hi o)⟩

/-- Settles O14: `Separate.absorb`, `Separate.add_of_full` and `Separate.clip`. -/
theorem gapInsertedBesideTheOthers : Obligations.GapInsertedBesideTheOthers := by
  refine ⟨fun l g empty => if_pos empty, fun l g filled room clear => ?_, fun o g h hg hh => ?_, fun o l g hl hg many => ?_,
    fun o e l hl he => ?_⟩
  · rw [gapAdd_of_absorbed filled (.inl room)]
    exact gapAbsorb_perm_of_clear clear
  · exact Gap.touches_iff (Gap.seen_of_apart hg) (Gap.seen_of_apart hh)
  · have seen := Gap.seen_of_apart hg
    have filled := (Gap.seen_iff.mp seen).1
    have separate := gapsApart_iff.mp hl
    have absorbs := separate.absorb seen
    have single : ∀ k, gapsCover o [g] k ↔ g.Covers o k := fun k =>
      gapsCover_cons.trans ⟨fun h => h.elim id fun ⟨y, hy, _⟩ => absurd hy List.not_mem_nil, .inl⟩
    refine ⟨?_, length_gapAdd l g many, fun h k => ?_, fun x full clear last => (separate.add_of_full seen full clear last).2⟩
    · by_cases h : l.length < 32 ∨ ∃ x ∈ l, g.touches x = true
      · rw [gapAdd_of_absorbed filled h]
        exact gapsApart_iff.mpr absorbs.1
      · have full : l.length = 32 := Nat.le_antisymm many (Nat.not_lt.mp fun lt => h (.inl lt))
        have clear : ∀ x ∈ l, g.touches x = false := fun x hx => Bool.not_eq_true _ ▸ fun t => h (.inr ⟨x, hx, t⟩)
        obtain ⟨x, last⟩ : ∃ x, l.getLast? = some x := by
          cases hlast : l.getLast? with
          | some x => exact ⟨x, rfl⟩
          | none =>
            rw [List.getLast?_eq_none_iff.mp hlast] at full
            exact absurd full nofun
        exact gapsApart_iff.mpr (separate.add_of_full seen full clear last).1
    · rw [gapAdd_of_absorbed filled h, absorbs.2, single]
  · obtain ⟨separate, covers⟩ := (gapsApart_iff.mp hl).clip he
    exact ⟨gapsApart_iff.mpr separate, covers⟩

end

end Sys2Proof.Machine
end

section
/-! PROOFS. A run in the open blob table (O21). -/

namespace Sys2Proof.Machine

/-! ### A run that creates a blob, is lost, or joins one -/

section
variable {t : Detect} {stamp : Pos} {ids : List Nat} {l : Linking} {r : Run}

theorem linkRun_creates (none : l.works.filter (Work.matchesRun t stamp r) = []) (room : l.works.length < 64) :
    linkRun t stamp ids l r = { l with
      works := l.works ++ [{ blob := r.newBlob (nextBlobId (l.works.map (·.blob.id) ++ ids) l.lastId) stamp, w0 := r.first, w1 := r.last
                             got := some (r.first, r.last) }]
      lastId := nextBlobId (l.works.map (·.blob.id) ++ ids) l.lastId } := by
  unfold linkRun
  rw [none]
  exact if_pos room

theorem linkRun_loses (none : l.works.filter (Work.matchesRun t stamp r) = []) (full : 64 ≤ l.works.length) :
    linkRun t stamp ids l r = { l with lost := true } := by
  unfold linkRun
  rw [none]
  exact if_neg (Nat.not_lt.mpr full)

/-- The blobs of `joined` but `v` merged into `v` (R47). -/
def Work.mergedWith (joined : List Work) (v : Work) : Work := (joined.filter fun u => u.blob.id != v.blob.id).foldl Work.absorb v

/-- A run that matches blobs is added to the survivor, which takes in the others (R46, R47). -/
theorem linkRun_joins {v : Work} (hv : v ∈ l.works.filter (Work.matchesRun t stamp r))
    (survives : ∀ u ∈ l.works.filter (Work.matchesRun t stamp r), u ≠ v → v.survivor u = v ∧ u.survivor v = v) :
    linkRun t stamp ids l r = { l with
      works := l.works.filterMap fun u =>
        if u.blob.id = v.blob.id then some ((Work.mergedWith (l.works.filter (Work.matchesRun t stamp r)) v).addRun stamp r)
        else if u.matchesRun t stamp r then none
        else some u } := by
  have choice : ∀ v w : Work, v.survivor w = v ∨ v.survivor w = w := by
    intro v w
    unfold Work.survivor
    split
    · exact .inr rfl
    · split
      · exact .inr rfl
      · exact .inl rfl
  unfold linkRun
  split
  · next none =>
    rw [none] at hv
    exact absurd hv List.not_mem_nil
  · next w ws joined =>
    have survivor : ws.foldl Work.survivor w = v := by
      rw [joined] at hv survives
      exact foldl_choose choice ws w hv survives
    dsimp only
    rw [survivor, joined]
    rfl

theorem linkRun_extends {w : Work} (one : l.works.filter (Work.matchesRun t stamp r) = [w]) :
    linkRun t stamp ids l r = { l with works := l.works.map fun u => if u.blob.id = w.blob.id then w.addRun stamp r else u } := by
  have alone : Work.mergedWith [w] w = w := by
    rw [Work.mergedWith, List.filter_eq_nil_iff.mpr fun u hu => ?_]
    · rfl
    · rw [List.mem_singleton.mp hu, bne_self_eq_false]
      exact Bool.false_ne_true
  rw [linkRun_joins (v := w) (by rw [one]; exact List.mem_singleton_self w) (by
    rw [one]
    exact fun u hu hne => absurd (List.mem_singleton.mp hu) hne), one, alone, ← List.filterMap_eq_map]
  refine congrArg (fun x => { l with works := x }) (filterMap_congr_of_mem fun u hu => ?_)
  by_cases same : u.blob.id = w.blob.id
  · rw [if_pos same]
    exact (congrArg some (if_pos same)).symm
  · have unmatched : ¬u.matchesRun t stamp r = true := fun h => by
      have mem : u ∈ l.works.filter (Work.matchesRun t stamp r) := List.mem_filter.mpr ⟨hu, h⟩
      rw [one] at mem
      exact same (congrArg (·.blob.id) (List.mem_singleton.mp mem))
    rw [if_neg same, if_neg unmatched]
    exact (congrArg some (if_neg same)).symm

/-- Of two blobs within 2^31 counts from `o` on, the one that begins earlier survives, and of two that begin together the lower id (R47). -/
theorem Work.survives_of_earlier {o : Pos} {v w : Work} (hv : dist o v.blob.first < 2 ^ 31) (hw : dist o w.blob.first < 2 ^ 31)
    (hid : v.blob.id ≠ w.blob.id)
    (h : dist o v.blob.first < dist o w.blob.first ∨ (v.blob.first = w.blob.first ∧ v.blob.id ≤ w.blob.id)) :
    v.survivor w = v ∧ w.survivor v = v := by
  have vw := before_iff_dist_lt hv hw
  have wv := before_iff_dist_lt hw hv
  rcases h with h | ⟨same, id⟩
  · have apart : ¬(w.blob.first = v.blob.first ∧ w.blob.id < v.blob.id) := fun e => by
      rw [e.1] at h
      exact Nat.lt_irrefl _ h
    exact ⟨by rw [Work.survivor, if_neg fun b => Nat.lt_asymm h (wv.mp b), if_neg apart], by rw [Work.survivor, if_pos (vw.mpr h)]⟩
  · have lt : v.blob.id < w.blob.id := Nat.lt_of_le_of_ne id hid
    rw [same] at vw wv
    refine ⟨?_, ?_⟩
    · rw [Work.survivor, same, if_neg fun b => Nat.lt_irrefl _ (wv.mp b), if_neg fun e => Nat.lt_asymm lt e.2]
    · rw [Work.survivor, same, if_neg fun b => Nat.lt_irrefl _ (vw.mp b), if_pos ⟨rfl, lt⟩]

end

/-! ### The features of a merge -/

/-- The columns the blob has: none with area 0 (R46). -/
def Work.columns (w : Work) : Option (Nat × Nat) := if w.blob.area = 0 then none else w.blob.cols

theorem Work.absorb_columns (v w : Work) : (v.absorb w).columns = unionCols v.columns w.columns := by
  change (if min max24 (v.blob.area + w.blob.area) = 0 then none else unionCols v.columns w.columns) = _
  split
  · next zero =>
    have both : v.blob.area = 0 ∧ w.blob.area = 0 := by
      unfold max24 at zero
      omega
    rw [Work.columns, Work.columns, if_pos both.1, if_pos both.2]
    rfl
  · rfl

/-- The union of the ranges of a list and one more. -/
def spanOf (l : List (Nat × Nat)) (a b : Nat) : Nat × Nat := ((l.map Prod.fst).foldl min a, (l.map Prod.snd).foldl max b)

theorem spanOf_perm {l m : List (Nat × Nat)} (p : l.Perm m) (a b : Nat) : spanOf l a b = spanOf m a b := by
  rw [spanOf, spanOf, foldl_eq_of_perm (p.map Prod.fst), foldl_eq_of_perm (p.map Prod.snd)]

theorem coverCols_foldl_unionCols (l : List (Option (Nat × Nat))) (a b : Nat) :
    ∀ o, coverCols (l.foldl unionCols o) a b = spanOf ((o :: l).filterMap id) a b := by
  induction l with
  | nil =>
    intro o
    cases o with
    | none => rfl
    | some x =>
      change (min x.1 a, max x.2 b) = (min a x.1, max b x.2)
      rw [Nat.min_comm, Nat.max_comm]
  | cons p l ih =>
    intro o
    rw [List.foldl_cons, ih]
    cases p with
    | none => rfl
    | some y =>
      cases o with
      | none => rfl
      | some x =>
        change ((l.filterMap id).map Prod.fst |>.foldl min (min a (min x.1 y.1)), (l.filterMap id).map Prod.snd |>.foldl max (max b (max x.2 y.2)))
          = ((l.filterMap id).map Prod.fst |>.foldl min (min (min a x.1) y.1), (l.filterMap id).map Prod.snd |>.foldl max (max (max b x.2) y.2))
        rw [Nat.min_assoc, Nat.max_assoc]

/-- What a feature of the survivor is after it has taken in blobs, one by one. -/
theorem foldl_absorb_feature {β γ : Type} {f : Work → β} {g : Work → γ} {op : β → γ → β} (h : ∀ v w, f (v.absorb w) = op (f v) (g w))
    (l : List Work) (v : Work) : f (l.foldl Work.absorb v) = (l.map g).foldl op (f v) := by
  rw [List.foldl_map]
  exact (List.foldl_hom f fun v w => (h v w).symm).symm

theorem foldl_absorb_kept {β : Type} {f : Work → β} (h : ∀ v w, f (v.absorb w) = f v) (l : List Work) (v : Work) :
    f (l.foldl Work.absorb v) = f v := by
  induction l generalizing v with
  | nil => rfl
  | cons w l ih => rw [List.foldl_cons, ih, h]

/-- A saturating sum saturates once (R46, R47). -/
theorem satAdd_foldl (top : Nat) (l : List Nat) (n : Nat) : ∀ a, satAdd top (l.foldl (satAdd top) a) n = min top (a + l.sum + n) := by
  induction l with
  | nil => exact fun a => rfl
  | cons b l ih =>
    intro a
    rw [List.foldl_cons, ih, satAdd, List.sum_cons]
    omega

section
variable {joined : List Work} {v : Work}

/-- Blobs of different ids: the survivor, and the others that it takes in. -/
theorem perm_survivor (hv : v ∈ joined) (nodup : (joined.map (·.blob.id)).Nodup) :
    joined.Perm (v :: joined.filter fun u => u.blob.id != v.blob.id) := by
  have others : joined.erase v = joined.filter fun u => u.blob.id != v.blob.id := by
    rw [(nodup_of_nodup_map nodup).erase_eq_filter]
    refine List.filter_congr fun u hu => ?_
    have same : u.blob.id = v.blob.id ↔ u = v := ⟨fun e => eq_of_nodup_map nodup hu hv e, fun e => by rw [e]⟩
    rw [bne, bne, Bool.eq_iff_iff, Bool.not_eq_true', Bool.not_eq_true', beq_eq_false_iff_ne, beq_eq_false_iff_ne, ne_eq, ne_eq, same]
  exact others ▸ List.perm_cons_erase hv

/-- A feature that is an associative and commutative combination is that of all the joined blobs, whichever of them survives. -/
theorem combine_survivor {g : Work → Nat} {op : Nat → Nat → Nat} [Std.Associative op] [Std.Commutative op] (hv : v ∈ joined)
    (nodup : (joined.map (·.blob.id)).Nodup) (b : Nat) :
    op (((joined.filter fun u => u.blob.id != v.blob.id).map g).foldl op (g v)) b = (joined.map g).foldl op b := by
  rw [foldl_eq_of_perm ((perm_survivor hv nodup).map g), List.map_cons, List.foldl_cons, List.foldl_assoc]
  exact Std.Commutative.comm _ _

/-- The ranges that the joined blobs have, whichever of them survives. -/
theorem span_survivor {g : Work → Option (Nat × Nat)} (hv : v ∈ joined) (nodup : (joined.map (·.blob.id)).Nodup) (a b : Nat) :
    coverCols (((joined.filter fun u => u.blob.id != v.blob.id).map g).foldl unionCols (g v)) a b = spanOf (joined.filterMap g) a b := by
  rw [coverCols_foldl_unionCols, spanOf_perm ((perm_survivor hv nodup).filterMap g), List.filterMap_cons, List.filterMap_cons, List.filterMap_map]
  rfl

theorem sum_survivor {g : Work → Nat} (top n : Nat) (hv : v ∈ joined) (nodup : (joined.map (·.blob.id)).Nodup) :
    satAdd top (((joined.filter fun u => u.blob.id != v.blob.id).map g).foldl (satAdd top) (g v)) n = min top ((joined.map g).sum + n) := by
  rw [satAdd_foldl, ((perm_survivor hv nodup).map g).sum_nat, List.map_cons, List.sum_cons]

end

theorem foldl_unionCols_isNone (l : List (Option (Nat × Nat))) : ∀ o, (l.foldl unionCols o).isNone = true ↔ (o :: l).filterMap id = [] := by
  induction l with
  | nil =>
    intro o
    cases o with
    | none => exact ⟨fun _ => rfl, fun _ => rfl⟩
    | some x => exact ⟨nofun, nofun⟩
  | cons p l ih =>
    intro o
    rw [List.foldl_cons, ih]
    cases p with
    | none => rfl
    | some y =>
      cases o with
      | none => rfl
      | some x => exact ⟨nofun, nofun⟩

theorem foldl_absorb_merged (l : List Work) (v : Work) : (l.foldl Work.absorb v).blob.merged = (v.blob.merged || decide (1 ≤ l.length)) := by
  induction l generalizing v with
  | nil => exact (Bool.or_false _).symm
  | cons w l ih =>
    rw [List.foldl_cons, ih, show (v.absorb w).blob.merged = true from rfl, Bool.true_or, List.length_cons,
      decide_eq_true (Nat.le_add_left 1 l.length), Bool.or_true]

/-- What a run and the blobs it matches make of the survivor (R46, R47). -/
theorem Work.merged_features {joined : List Work} {v : Work} (hv : v ∈ joined) (nodup : (joined.map (·.blob.id)).Nodup) (stamp : Pos)
    (r : Run) :
    let seen := joined.filterMap fun u => if u.blob.area = 0 then none else u.blob.cols
    let parts := joined.filterMap Work.got
    let lines := (joined.map (·.blob.lines)).foldl max 0
    let m := (Work.mergedWith joined v).addRun stamp r
    m.blob.id = v.blob.id ∧ m.blob.polarity = v.blob.polarity ∧ m.blob.first = v.blob.first
      ∧ m.blob.continuedFrom = v.blob.continuedFrom ∧ m.blob.x0 = v.blob.x0 ∧ m.blob.x1 = v.blob.x1
      ∧ m.blob.last = stamp
      ∧ m.blob.cols = some ((seen.map Prod.fst).foldl min r.first, (seen.map Prod.snd).foldl max r.last)
      ∧ m.blob.area = min 16777215 ((joined.map (·.blob.area)).sum + (r.last - r.first + 1))
      ∧ m.blob.sum = min 4294967295 ((joined.map (·.blob.sum)).sum + r.sum)
      ∧ m.blob.peak = (joined.map (·.blob.peak)).foldl max r.peak
      ∧ m.blob.lines = (if parts = [] then min 16777215 (lines + 1) else lines)
      ∧ m.blob.merged = (v.blob.merged || decide (2 ≤ joined.length))
      ∧ m.w0 = (joined.map Work.w0).foldl min r.first ∧ m.w1 = (joined.map Work.w1).foldl max r.last
      ∧ m.got = some ((parts.map Prod.fst).foldl min r.first, (parts.map Prod.snd).foldl max r.last) := by
  intro seen parts lines m
  have perm := perm_survivor hv nodup
  obtain ⟨others, hothers⟩ : ∃ others, others = joined.filter fun u => u.blob.id != v.blob.id := ⟨_, rfl⟩
  obtain ⟨w, hw⟩ : ∃ w, w = others.foldl Work.absorb v := ⟨_, rfl⟩
  have hm : m = w.addRun stamp r := by
    rw [hw, hothers]
    rfl
  have columns : w.columns = (others.map Work.columns).foldl unionCols v.columns := hw ▸ foldl_absorb_feature Work.absorb_columns others v
  have got : w.got = (others.map Work.got).foldl unionCols v.got := hw ▸ foldl_absorb_feature (fun _ _ => rfl) others v
  have area : w.blob.area = (others.map (·.blob.area)).foldl (satAdd max24) v.blob.area :=
    hw ▸ foldl_absorb_feature (f := fun u => u.blob.area) (fun _ _ => rfl) others v
  have sum : w.blob.sum = (others.map (·.blob.sum)).foldl (satAdd max32) v.blob.sum :=
    hw ▸ foldl_absorb_feature (f := fun u => u.blob.sum) (fun _ _ => rfl) others v
  have peak : w.blob.peak = (others.map (·.blob.peak)).foldl max v.blob.peak :=
    hw ▸ foldl_absorb_feature (f := fun u => u.blob.peak) (fun _ _ => rfl) others v
  have lines' : w.blob.lines = (others.map (·.blob.lines)).foldl max v.blob.lines :=
    hw ▸ foldl_absorb_feature (f := fun u => u.blob.lines) (fun _ _ => rfl) others v
  have w0 : w.w0 = (others.map Work.w0).foldl min v.w0 := hw ▸ foldl_absorb_feature (fun _ _ => rfl) others v
  have w1 : w.w1 = (others.map Work.w1).foldl max v.w1 := hw ▸ foldl_absorb_feature (fun _ _ => rfl) others v
  have merged : w.blob.merged = (v.blob.merged || decide (1 ≤ others.length)) := hw ▸ foldl_absorb_merged others v
  have kept : ∀ {β : Type} (f : Work → β), (∀ v w, f (v.absorb w) = f v) → f w = f v := fun f h => hw ▸ foldl_absorb_kept h others v
  have fresh : w.got.isNone = true ↔ parts = [] := by
    have source : parts.Perm ((v :: others).filterMap Work.got) := hothers ▸ perm.filterMap Work.got
    have mapped : (v.got :: others.map Work.got).filterMap id = (v :: others).filterMap Work.got := by
      rw [← List.map_cons, List.filterMap_map]
      rfl
    rw [got, foldl_unionCols_isNone, mapped, ← List.length_eq_zero_iff, ← source.length_eq, List.length_eq_zero_iff]
  rw [hm]
  subst hothers
  refine ⟨kept (·.blob.id) fun _ _ => rfl, kept (·.blob.polarity) fun _ _ => rfl, kept (·.blob.first) fun _ _ => rfl,
    kept (·.blob.continuedFrom) fun _ _ => rfl, kept (·.blob.x0) fun _ _ => rfl, kept (·.blob.x1) fun _ _ => rfl, rfl, ?_, ?_, ?_, ?_, ?_,
    ?_, ?_, ?_, ?_⟩
  · exact congrArg some ((congrArg (coverCols · r.first r.last) columns).trans (span_survivor hv nodup _ _))
  · exact (congrArg (satAdd max24 · _) area).trans (sum_survivor (g := fun u => u.blob.area) _ _ hv nodup)
  · exact (congrArg (satAdd max32 · _) sum).trans (sum_survivor (g := fun u => u.blob.sum) _ _ hv nodup)
  · exact (congrArg (max · _) peak).trans (combine_survivor (g := fun u => u.blob.peak) hv nodup _)
  · have total : w.blob.lines = lines := by
      rw [lines']
      change _ = (joined.map (·.blob.lines)).foldl max 0
      rw [foldl_eq_of_perm (perm.map (·.blob.lines)), List.map_cons, List.foldl_cons, Nat.zero_max]
    change (if w.got.isNone = true then satAdd max24 w.blob.lines 1 else w.blob.lines) = _
    rw [total]
    exact ite_of_iff fresh _ _
  · change w.blob.merged = _
    rw [merged, perm.length_eq, List.length_cons]
    exact congrArg (v.blob.merged || ·) (decide_eq_decide.mpr (by omega))
  · exact (congrArg (min · _) w0).trans (combine_survivor hv nodup _)
  · exact (congrArg (max · _) w1).trans (combine_survivor hv nodup _)
  · exact congrArg some ((congrArg (coverCols · r.first r.last) got).trans (span_survivor hv nodup _ _))

end Sys2Proof.Machine
end

section
/-! PROOFS. A run, and a line with its runs linked (O21). -/

namespace Sys2Proof.Machine

/-! ### One run -/

theorem linkRun_places (t : Detect) (stamp : Pos) (ids : List Nat) (l : Linking) (r : Run) :
    (l.works.filter (Work.matchesRun t stamp r) = [] → l.works.length < 64 →
      ∃ w : Work, (linkRun t stamp ids l r).works = l.works ++ [w]
        ∧ (linkRun t stamp ids l r).lastId = w.blob.id ∧ (linkRun t stamp ids l r).lost = l.lost
        ∧ w.blob.id = nextBlobId (l.works.map (·.blob.id) ++ ids) l.lastId ∧ w.blob.polarity = r.polarity
        ∧ w.blob.first = stamp ∧ w.blob.last = stamp ∧ w.blob.x0 = r.first ∧ w.blob.x1 = r.last
        ∧ w.blob.cols = some (r.first, r.last) ∧ w.blob.area = r.last - r.first + 1 ∧ w.blob.sum = r.sum
        ∧ w.blob.peak = r.peak ∧ w.blob.lines = 1 ∧ w.blob.merged = false ∧ w.blob.continuedFrom = none)
    ∧ (l.works.filter (Work.matchesRun t stamp r) = [] → 64 ≤ l.works.length →
      linkRun t stamp ids l r = { l with lost := true })
    ∧ (∀ w : Work, l.works.filter (Work.matchesRun t stamp r) = [w] → (l.works.map (·.blob.id)).Nodup →
      linkRun t stamp ids l r
        = { l with works := l.works.map fun u => if u.blob.id = w.blob.id then w.addRun stamp r else u })
    ∧ ∀ (o : Pos) (v : Work), (l.works.map (·.blob.id)).Nodup →
      v ∈ l.works.filter (Work.matchesRun t stamp r) → (∀ u ∈ l.works.filter (Work.matchesRun t stamp r), dist o u.blob.first < 2 ^ 31) →
      (∀ u ∈ l.works.filter (Work.matchesRun t stamp r),
        dist o v.blob.first < dist o u.blob.first ∨ (v.blob.first = u.blob.first ∧ v.blob.id ≤ u.blob.id)) →
      linkRun t stamp ids l r = { l with
        works := l.works.filterMap fun u =>
          if u.blob.id = v.blob.id then some ((Work.mergedWith (l.works.filter (Work.matchesRun t stamp r)) v).addRun stamp r)
          else if u.matchesRun t stamp r then none
          else some u } := by
  refine ⟨fun none room => ?_, linkRun_loses, fun w one _ => linkRun_extends one, fun o v nodup hv near earliest => ?_⟩
  · rw [linkRun_creates none room]
    exact ⟨_, rfl, rfl, rfl, rfl, rfl, rfl, rfl, rfl, rfl, rfl, rfl, rfl, rfl, rfl, rfl, rfl⟩
  · refine linkRun_joins hv fun u hu hne => ?_
    have ids : v.blob.id ≠ u.blob.id := fun e =>
      hne (eq_of_nodup_map nodup (List.mem_filter.mp hu).1 (List.mem_filter.mp hv).1 e.symm)
    exact Work.survives_of_earlier (near v hv) (near u hu) ids (earliest u hu)

/-! ### The line -/

section
variable {s t : State}

theorem insertById_sorted (x : Blob × Bool) {l : List (Blob × Bool)} (h : l.Pairwise fun a b => a.1.id ≤ b.1.id) :
    (insertById x l).Pairwise fun a b => a.1.id ≤ b.1.id := by
  induction l with
  | nil => exact List.pairwise_singleton _ _
  | cons y rest ih =>
    obtain ⟨first, tail⟩ := List.pairwise_cons.mp h
    unfold insertById
    split
    · next le =>
      refine List.pairwise_cons.mpr ⟨fun z hz => ?_, h⟩
      rcases List.mem_cons.mp hz with rfl | hz
      · exact le
      · exact Nat.le_trans le (first z hz)
    · next gt =>
      refine List.pairwise_cons.mpr ⟨fun z hz => ?_, ih tail⟩
      rcases List.mem_cons.mp ((insertById_perm x rest).mem_iff.mp hz) with rfl | hz
      · exact Nat.le_of_lt (Nat.not_le.mp gt)
      · exact first z hz

theorem sortById_sorted (l : List (Blob × Bool)) : (sortById l).Pairwise fun a b => a.1.id ≤ b.1.id := by
  induction l with
  | nil => exact .nil
  | cons x l ih => exact insertById_sorted x ih

/-- The flaw of a closing blob; the flag says it closes by splitting (R48 to R50, R58). -/
def State.closedFlaw (s : State) (x : Blob × Bool) : Flaw :=
  x.1.toFlaw s.fdu.detect s.fdu.classes s.ppl.grade (x.1.last + BitVec.ofNat 32 s.fdu.detect.ldiv) x.2 false

theorem State.closeBlob_store (s : State) (x : Blob × Bool) (h : s.fdu.store.length ≤ 512) :
    (s.closeBlob x).fdu.store = (s.fdu.store ++ if x.1.area = 0 then [] else [s.closedFlaw x]).take 512 := by
  unfold State.closeBlob
  split
  · rw [List.append_nil, List.take_of_length_le h]
  · unfold State.offerFlaw
    split
    · next room =>
      refine (List.take_of_length_le ?_).symm
      rw [List.length_append]
      exact room
    · next full =>
      have all : 512 ≤ s.fdu.store.length := Nat.not_lt.mp full
      rw [State.addLoss_fdu, List.take_append_of_le_length all, List.take_of_length_le h]

theorem take_append_take {α : Type} (l m : List α) (n : Nat) : (l.take n ++ m).take n = (l ++ m).take n := by
  rcases Nat.le_total l.length n with le | ge
  · rw [List.take_of_length_le le]
  · rw [List.take_append_of_le_length (by rw [List.length_take]; omega), List.take_append_of_le_length ge, List.take_take, Nat.min_self]

/-- Closed blobs of area other than 0 enter the store in order, as far as it has room (R58, R59). -/
theorem State.foldl_closeBlob_store (l : List (Blob × Bool)) : ∀ s : State, s.fdu.store.length ≤ 512 →
    (l.foldl State.closeBlob s).fdu.store =
      (s.fdu.store ++ (l.filter fun x => decide (x.1.area ≠ 0)).map s.closedFlaw).take 512 := by
  induction l with
  | nil =>
    intro s h
    rw [List.filter_nil, List.map_nil, List.append_nil, List.take_of_length_le h]
    rfl
  | cons x l ih =>
    intro s h
    have first := s.closeBlob_store x h
    have detects := s.closeBlob_detects x
    have flaws : (s.closeBlob x).closedFlaw = s.closedFlaw := by
      unfold State.closedFlaw
      rw [detects.fdu, detects.ppl]
    have entered : (if x.1.area = 0 then [] else [s.closedFlaw x]) ++ (l.filter fun x => decide (x.1.area ≠ 0)).map s.closedFlaw
        = ((x :: l).filter fun x => decide (x.1.area ≠ 0)).map s.closedFlaw := by
      by_cases empty : x.1.area = 0
      · rw [if_pos empty, List.filter_cons, if_neg (by rw [decide_eq_true_iff]; exact not_not_intro empty)]
        rfl
      · rw [if_neg empty, List.filter_cons, if_pos (decide_eq_true empty)]
        rfl
    rw [List.foldl_cons, ih _ (by rw [first]; exact List.length_take_le _ _), flaws, first, take_append_take, List.append_assoc, entered]

/-- A successor opens empty at the next line, with a free id (R41, R49). -/
structure Opened (d : Detect) (stamp : Pos) (held : List Nat) (split next : List Blob) : Prop where
  continues : next.map Blob.continuedFrom = split.map fun b => some b.id
  shape : next.map (fun b => (b.polarity, b.x0, b.x1)) = split.map fun b => (b.polarity, b.x0, b.x1)
  empty : ∀ b ∈ next, b.first = stamp + BitVec.ofNat 32 d.ldiv ∧ b.last = stamp ∧ b.cols = none ∧ b.area = 0 ∧ b.sum = 0 ∧ b.peak = 0
    ∧ b.lines = 0 ∧ b.merged = false
  free : ∀ b ∈ next, b.id ∉ held
  nodup : (next.map Blob.id).Nodup

theorem State.foldl_openSuccessor_opened (stamp : Pos) (l : List Blob) : ∀ s : State,
    s.fdu.blobs.length + s.fdu.store.length + l.length < 65536 →
    ∃ next n, l.foldl (State.openSuccessor stamp) s = { s with fdu.blobs := s.fdu.blobs ++ next, fdu.lastBlobId := n }
      ∧ Opened s.fdu.detect stamp (s.fdu.blobs.map Blob.id ++ s.fdu.store.map Flaw.id) l next := by
  induction l with
  | nil =>
    intro s _
    refine ⟨[], s.fdu.lastBlobId, by rw [List.append_nil]; rfl, rfl, rfl, ?_, ?_, .nil⟩
    · exact fun b hb => absurd hb List.not_mem_nil
    · exact fun b hb => absurd hb List.not_mem_nil
  | cons b l ih =>
    intro s room
    obtain ⟨held, hheld⟩ : ∃ held, held = s.fdu.blobs.map Blob.id ++ s.fdu.store.map Flaw.id := ⟨_, rfl⟩
    obtain ⟨c, hc⟩ : ∃ c, c = b.successor s.fdu.detect stamp (nextBlobId held s.fdu.lastBlobId) := ⟨_, rfl⟩
    have opens : s.openSuccessor stamp b = { s with fdu.blobs := s.fdu.blobs ++ [c], fdu.lastBlobId := nextBlobId held s.fdu.lastBlobId } := by
      rw [hc, hheld]
      rfl
    have count : held.length < 65535 := by
      rw [hheld, List.length_append, List.length_map, List.length_map]
      rw [List.length_cons] at room
      omega
    have free : c.id ∉ held := by
      rw [hc]
      exact (blobIdIsTheNextFree held _ count).2.2.1
    obtain ⟨next, n, opened, rest⟩ := ih (s.openSuccessor stamp b) (by
      rw [opens]
      change (s.fdu.blobs ++ [c]).length + s.fdu.store.length + l.length < 65536
      rw [List.length_append, List.length_singleton]
      rw [List.length_cons] at room
      omega)
    rw [opens] at opened rest
    have taken : ∀ i, i ∈ (s.fdu.blobs ++ [c]).map Blob.id ++ s.fdu.store.map Flaw.id ↔ i = c.id ∨ i ∈ held := fun i => by
      rw [hheld]
      simp only [List.map_append, List.map_cons, List.map_nil, List.mem_append, List.mem_singleton]
      rw [or_assoc, or_left_comm]
    refine ⟨c :: next, n, ?_, ?_⟩
    · rw [List.foldl_cons, opens, opened, List.append_assoc]
      rfl
    · rw [← hheld]
      exact
        { continues := by rw [List.map_cons, List.map_cons, rest.continues, hc]; rfl
          shape := by rw [List.map_cons, List.map_cons, rest.shape, hc]; rfl
          empty := fun x hx => by
            rcases List.mem_cons.mp hx with rfl | hx
            · rw [hc]
              exact ⟨rfl, rfl, rfl, rfl, rfl, rfl, rfl, rfl⟩
            · exact rest.empty x hx
          free := fun x hx => by
            rcases List.mem_cons.mp hx with rfl | hx
            · exact free
            · exact fun h => rest.free x hx ((taken _).mpr (.inr h))
          nodup := by
            rw [List.map_cons, List.nodup_cons]
            refine ⟨fun h => ?_, rest.nodup⟩
            obtain ⟨x, hx, same⟩ := List.mem_map.mp h
            exact rest.free x hx ((taken _).mpr (.inl same)) }

/-! ### The losses of a line -/

theorem State.addLoss_lost_ne {c c' : LossCause} (h : c'.index ≠ c.index) (g : Gap) (s : State) :
    (s.addLoss c g).sac.counters.lost[c'.index] = s.sac.counters.lost[c'.index] := by
  by_cases hg : g.length = 0
  · rw [State.addLoss, if_pos hg]
  · rw [State.addLoss_counters _ _ _ hg]
    exact bump_ne _ h _

/-- A flaw lost to a full store is no blob lost to a full table (R17, R59). -/
theorem State.foldl_closeBlob_lost (l : List (Blob × Bool)) : ∀ s : State,
    (l.foldl State.closeBlob s).sac.counters.lost[3] = s.sac.counters.lost[3] := by
  induction l with
  | nil => exact fun _ => rfl
  | cons x l ih =>
    intro s
    refine (ih _).trans ?_
    unfold State.closeBlob State.offerFlaw
    split
    · rfl
    · split
      · rfl
      · exact State.addLoss_lost_ne (c' := .blobTableFull) (by decide) _ s

/-! ### The line as a whole -/

/-- The line's runs linked, before blobs split and close (R42). -/
def State.linked (s : State) (stamp : Pos) (runs : List Run) : Linking :=
  linkRuns s.fdu.detect stamp (s.fdu.store.map Flaw.id) s.fdu.blobs s.fdu.lastBlobId runs

/-- The blobs that the line does not split (R49). -/
def State.unsplit (s : State) (stamp : Pos) (runs : List Run) : List Blob :=
  ((s.linked stamp runs).works.filter fun w => !w.splits s.fdu.detect stamp).map Work.finish

/-- The blobs that close at the line, in ascending id; the flag says they close by splitting (R42). -/
def State.closingAt (s : State) (stamp : Pos) (runs : List Run) : List (Blob × Bool) :=
  sortById (((s.linked stamp runs).works.filter (Work.splits s.fdu.detect stamp)).map (fun w => (w.finish, true))
    ++ ((s.unsplit stamp runs).filter (Blob.quiet s.fdu.detect stamp)).map fun b => (b, false))

/-- The blobs split at the line, in ascending id. -/
def State.splitAt (s : State) (stamp : Pos) (runs : List Run) : List Blob := ((s.closingAt stamp runs).filter Prod.snd).map Prod.fst

theorem State.splitAt_perm (s : State) (stamp : Pos) (runs : List Run) :
    (s.splitAt stamp runs).Perm (((s.linked stamp runs).works.filter (Work.splits s.fdu.detect stamp)).map Work.finish) := by
  have flagged := ((sortById_perm (((s.linked stamp runs).works.filter (Work.splits s.fdu.detect stamp)).map (fun w => (w.finish, true))
    ++ ((s.unsplit stamp runs).filter (Blob.quiet s.fdu.detect stamp)).map fun b => (b, false))).filter Prod.snd).map Prod.fst
  rw [List.filter_append, List.map_append] at flagged
  have first : ∀ l : List Work, ((l.map fun w => (w.finish, true)).filter Prod.snd).map Prod.fst = l.map Work.finish := fun l => by
    rw [List.filter_eq_self.mpr, List.map_map]
    · rfl
    · intro x hx
      obtain ⟨w, -, rfl⟩ := List.mem_map.mp hx
      rfl
  have second : ∀ l : List Blob, ((l.map fun b => (b, false)).filter Prod.snd).map Prod.fst = [] := fun l => by
    rw [List.filter_eq_nil_iff.mpr]
    · rfl
    · intro x hx
      obtain ⟨b, -, rfl⟩ := List.mem_map.mp hx
      exact Bool.false_ne_true
  rw [first, second, List.append_nil] at flagged
  exact flagged

theorem State.closingAt_perm (s : State) (stamp : Pos) (runs : List Run) :
    (s.closingAt stamp runs).Perm ((s.splitAt stamp runs).map (fun b => (b, true))
      ++ ((s.unsplit stamp runs).filter (Blob.quiet s.fdu.detect stamp)).map fun b => (b, false)) := by
  refine (sortById_perm _).trans (List.Perm.append_right _ ?_)
  have same := ((s.splitAt_perm stamp runs).map fun b => (b, true)).symm
  rw [List.map_map] at same
  exact same

/-- A run lost to a full table is reported before anything closes (R17). -/
def State.lossReported (s : State) (stamp : Pos) (runs : List Run) : State :=
  if (s.linked stamp runs).lost then s.addLoss .blobTableFull (stampRange stamp s.fdu.detect.ldiv) else s

/-- The table once the closing blobs have left it. -/
def State.blobsKept (s : State) (stamp : Pos) (runs : List Run) : State :=
  { s.lossReported stamp runs with
    fdu.blobs := (s.unsplit stamp runs).filter fun b => !b.quiet s.fdu.detect stamp, fdu.lastBlobId := (s.linked stamp runs).lastId }

theorem State.linkLine_eq (s : State) (stamp : Pos) (runs : List Run) : s.linkLine stamp runs =
    (s.splitAt stamp runs).foldl (State.openSuccessor stamp) ((s.closingAt stamp runs).foldl State.closeBlob (s.blobsKept stamp runs)) := rfl

theorem State.blobsKept_detects (s : State) (stamp : Pos) (runs : List Run) : s.Detects (s.blobsKept stamp runs) := by
  have reports : s.Detects (s.lossReported stamp runs) := by
    unfold State.lossReported
    split
    · exact State.addLoss_detects _ _ s
    · exact .refl s
  exact reports.trans ⟨rfl, rfl, rfl, rfl, rfl, rfl, rfl, rfl, rfl, fun _ => id⟩

theorem Work.finish_eq (w : Work) : (match w.got with
    | some (a, b) => { w.blob with x0 := a, x1 := b }
    | none => w.blob) = w.finish := by
  rw [Work.finish]
  cases w.got <;> rfl

theorem Work.splits_eq (d : Detect) (stamp : Pos) (w : Work) :
    (w.got.isSome && decide ((stamp - w.blob.first).toNat < 2 ^ 31 ∧ d.maxBlobCounts ≤ (stamp - w.blob.first).toNat)) = w.splits d stamp := by
  rw [Work.splits, reaches, Bool.and_assoc, ← Bool.decide_and]
  rfl

theorem Blob.quiet_eq (d : Detect) (stamp : Pos) (b : Blob) :
    decide ((stamp - b.last).toNat < 2 ^ 31 ∧ (d.gapLines + 1) * d.ldiv < (stamp - b.last).toNat) = b.quiet d stamp := by
  rw [Blob.quiet, before, ← Bool.decide_and]
  refine decide_eq_decide.mpr ?_
  unfold dist Detect.gapTolerance
  omega

/-- What a line leaves of table and store (R42, R48 to R50, R58). -/
theorem State.linkLine_facts (s : State) (stamp : Pos) (runs : List Run) (hb : s.fdu.blobs.length ≤ 64) (hs : s.fdu.store.length ≤ 512) :
    ∃ next, Opened s.fdu.detect stamp
        (((s.unsplit stamp runs).filter fun b => !b.quiet s.fdu.detect stamp).map Blob.id ++ (s.linkLine stamp runs).fdu.store.map Flaw.id)
        (s.splitAt stamp runs) next
      ∧ (s.linkLine stamp runs).fdu.blobs = ((s.unsplit stamp runs).filter fun b => !b.quiet s.fdu.detect stamp) ++ next
      ∧ (s.linkLine stamp runs).fdu.store =
        (s.fdu.store ++ ((s.closingAt stamp runs).filter fun x => decide (x.1.area ≠ 0)).map s.closedFlaw).take 512
      ∧ s.Detects (s.linkLine stamp runs)
      ∧ (s.linkLine stamp runs).sac.counters.lost[3] = (s.lossReported stamp runs).sac.counters.lost[3]
      ∧ ∀ i, (s.lossReported stamp runs).csu.causes.getLsbD i = true → (s.linkLine stamp runs).csu.causes.getLsbD i = true := by
  obtain ⟨c, hc⟩ : ∃ c, c = (s.closingAt stamp runs).foldl State.closeBlob (s.blobsKept stamp runs) := ⟨_, rfl⟩
  have keeps := s.blobsKept_detects stamp runs
  have closes : (s.blobsKept stamp runs).Detects c := hc ▸ State.foldl_closeBlob_detects _ _
  have detects := keeps.trans closes
  have storeKept : (s.blobsKept stamp runs).fdu.store = s.fdu.store := by
    have reported : (s.lossReported stamp runs).fdu = s.fdu := by
      unfold State.lossReported
      split
      · exact State.addLoss_fdu _ _ _
      · rfl
    exact (congrArg Fdu.store reported :)
  have flaws : (s.blobsKept stamp runs).closedFlaw = s.closedFlaw := by
    unfold State.closedFlaw
    rw [keeps.fdu, keeps.ppl]
  have store : c.fdu.store = (s.fdu.store ++ ((s.closingAt stamp runs).filter fun x => decide (x.1.area ≠ 0)).map s.closedFlaw).take 512 := by
    rw [hc, State.foldl_closeBlob_store _ _ (by rw [storeKept]; exact hs), storeKept, flaws]
  have blobs : c.fdu.blobs = (s.unsplit stamp runs).filter fun b => !b.quiet s.fdu.detect stamp := by
    rw [hc, State.foldl_closeBlob_blobs]
    rfl
  have works : (s.linked stamp runs).works.length ≤ 64 :=
    length_linkRuns s.fdu.detect stamp (s.fdu.store.map Flaw.id) s.fdu.blobs s.fdu.lastBlobId runs hb
  have few : c.fdu.blobs.length + c.fdu.store.length + (s.splitAt stamp runs).length < 65536 := by
    have kept := List.length_filter_le (fun b : Blob => !b.quiet s.fdu.detect stamp) (s.unsplit stamp runs)
    have unsplit := List.length_filter_le (fun w : Work => !w.splits s.fdu.detect stamp) (s.linked stamp runs).works
    have split := List.length_filter_le (Work.splits s.fdu.detect stamp) (s.linked stamp runs).works
    have stored := List.length_take_le 512 (s.fdu.store ++ ((s.closingAt stamp runs).filter fun x => decide (x.1.area ≠ 0)).map s.closedFlaw)
    rw [blobs, store, (s.splitAt_perm stamp runs).length_eq, List.length_map]
    rw [State.unsplit, List.length_map] at kept
    rw [State.unsplit]
    omega
  obtain ⟨next, n, opens, opened⟩ := State.foldl_openSuccessor_opened stamp (s.splitAt stamp runs) c few
  have line : s.linkLine stamp runs = { c with fdu.blobs := c.fdu.blobs ++ next, fdu.lastBlobId := n } := by
    rw [State.linkLine_eq, ← hc, opens]
  have sameDetect : c.fdu.detect = s.fdu.detect := by rw [detects.fdu]
  rw [line]
  refine ⟨next, ?_, ?_, store, detects.trans ⟨rfl, rfl, rfl, rfl, rfl, rfl, rfl, rfl, rfl, fun _ => id⟩, ?_, fun i hi => closes.causes i hi⟩
  · rw [← blobs, ← sameDetect]
    exact opened
  · exact congrArg (· ++ next) blobs
  · change c.sac.counters.lost[3] = _
    rw [hc, State.foldl_closeBlob_lost]
    rfl

end

/-- Settles O21: `linkRun_places` and `Work.merged_features` for one run, `State.linkLine_facts` for the line. -/
theorem runIsPlaced : Obligations.RunIsPlaced := by
  refine ⟨fun t stamp ids l r => ?_, fun s stamp runs hb hs => ?_⟩
  · obtain ⟨creates, loses, extended, joins⟩ := linkRun_places t stamp ids l r
    refine ⟨creates, loses, extended, fun o v nodup => ?_⟩
    intro joined seen parts lines hv near earliest
    exact ⟨_, joins o v nodup hv near earliest, Work.merged_features hv (nodup.sublist (List.filter_sublist.map _)) stamp r⟩
  · intro t d l extent splits quiet going
    have hextent : extent = Work.finish := funext Work.finish_eq
    have hsplits : splits = Work.splits d stamp := funext (Work.splits_eq d stamp)
    have hquiet : quiet = Blob.quiet d stamp := funext (Blob.quiet_eq d stamp)
    have hgoing : going = s.unsplit stamp runs := by
      change (l.works.filter fun w => !splits w).map extent = _
      rw [hextent, hsplits]
      rfl
    clear_value going extent splits quiet
    subst hextent hsplits hquiet hgoing
    obtain ⟨next, opened, blobs, store, detects, lost, causes⟩ := s.linkLine_facts stamp runs hb hs
    refine ⟨s.splitAt stamp runs, s.closingAt stamp runs, next, s.splitAt_perm stamp runs, ?_, s.closingAt_perm stamp runs, sortById_sorted _,
      store, blobs, opened.continues, opened.shape, fun b hb => ?_, opened.nodup, fun hl hd => ⟨?_, ?_⟩, fun hl => ?_, ?_, ?_, ?_, ?_,
      detects.ppl, detects.cdu, detects.rou⟩
    · exact (List.pairwise_map.mpr ((sortById_sorted _).sublist List.filter_sublist))
    · obtain ⟨first, last, cols, area, sum, peak, lines, merged⟩ := opened.empty b hb
      have free := opened.free b hb
      rw [List.mem_append, not_or] at free
      refine ⟨first, last, cols, area, sum, peak, lines, merged, free.2, fun k hk stays same => free.1 ?_⟩
      rw [same]
      exact List.mem_map_of_mem (List.mem_filter.mpr ⟨hk, by rw [stays]; rfl⟩)
    · rw [lost, State.lossReported, if_pos (show (s.linked stamp runs).lost = true from hl), State.addLoss_counters _ _ _ hd]
      exact bump_same _ _ _
    · refine causes 16 ?_
      rw [State.lossReported, if_pos (show (s.linked stamp runs).lost = true from hl)]
      exact State.addLoss_lineLoss _ _ _ hd
    · rw [lost, State.lossReported, if_neg (by rw [show (s.linked stamp runs).lost = false from hl]; exact Bool.false_ne_true)]
    · exact (congrArg Fdu.detect detects.fdu :)
    · exact (congrArg Fdu.scan detects.fdu :)
    · exact (congrArg Fdu.reference detects.fdu :)
    · exact (congrArg Lcu.fifo detects.lcu :)

end Sys2Proof.Machine
end

section
/-! PROOFS. Line capture (R6 to R11), and what goes downstream (O42, its parts on beats). -/

namespace Sys2Proof.Machine

variable {s t u : State}

/-! ### Ranges lost one after another -/

/-- Lost ranges that are not empty are counted under their cause (R17). -/
theorem State.foldl_addLoss_counters (c : LossCause) (l : List Gap) : ∀ (s : State) (g : Gap), (∀ x ∈ g :: l, x.length ≠ 0) →
    ((g :: l).foldl (fun u x => u.addLoss c x) s).sac.counters.lost = bump s.sac.counters.lost c.index (l.length + 1)
      ∧ ((g :: l).foldl (fun u x => u.addLoss c x) s).sac.counters.extrapolated = s.sac.counters.extrapolated
      ∧ ((g :: l).foldl (fun u x => u.addLoss c x) s).csu.causes.getLsbD 16 = true := by
  induction l with
  | nil =>
    intro s g h
    have hg := h g List.mem_cons_self
    rw [List.foldl_cons, List.foldl_nil, State.addLoss_counters _ _ _ hg]
    exact ⟨rfl, rfl, State.addLoss_lineLoss _ _ _ hg⟩
  | cons x l ih =>
    intro s g h
    have hg := h g List.mem_cons_self
    obtain ⟨lost, extrapolated, cause⟩ := ih (s.addLoss c g) x fun y hy => h y (List.mem_cons_of_mem _ hy)
    rw [List.foldl_cons, lost, extrapolated, State.addLoss_counters _ _ _ hg]
    exact ⟨by rw [bump_bump, Nat.add_comm 1, List.length_cons], rfl, cause⟩

theorem State.foldl_addLoss_detects (c : LossCause) (l : List Gap) (s : State) : s.Detects (l.foldl (fun u g => u.addLoss c g) s) :=
  foldl_related State.Detects.refl State.Detects.trans l s fun s g _ => State.addLoss_detects c g s

/-! ### The stamp of a new line -/

/-- The stamps at the head of the FIFO that are not after the last stamp (R8). -/
def State.surplus (s : State) : List Pos := s.lcu.fifo.takeWhile fun p => !before s.lcu.lastStamp p

/-- The surplus stamps lost as trigger overruns (R4, R8). -/
def State.surplusLost (s : State) : State :=
  (s.surplus.map fun p => stampRange p s.fdu.detect.ldiv).foldl (fun u g => u.addLoss .triggerOverrun g) s

theorem State.surplusLost_detects (s : State) : s.Detects s.surplusLost := State.foldl_addLoss_detects _ _ _

theorem State.dropSurplus_eq (l : List Pos) : ∀ s : State, State.dropSurplus l s =
    { (l.takeWhile fun p => !before s.lcu.lastStamp p).map (fun p => stampRange p s.fdu.detect.ldiv)
        |>.foldl (fun u g => u.addLoss .triggerOverrun g) s with
      lcu.fifo := l.drop (l.takeWhile fun p => !before s.lcu.lastStamp p).length } := by
  induction l with
  | nil => exact fun _ => rfl
  | cons p l ih =>
    intro s
    unfold State.dropSurplus
    split
    · next h =>
      have none : (p :: l).takeWhile (fun p => !before s.lcu.lastStamp p) = [] := by rw [List.takeWhile_cons, h]; rfl
      rw [none]
      rfl
    · next h =>
      have more : (p :: l).takeWhile (fun p => !before s.lcu.lastStamp p) = p :: l.takeWhile fun p => !before s.lcu.lastStamp p := by
        rw [List.takeWhile_cons, (Bool.not_eq_true _).mp h]
        rfl
      have detects := State.addLoss_detects .triggerOverrun (stampRange p s.fdu.detect.ldiv) s
      rw [ih, more, detects.lcu, detects.fdu]
      rfl

/-- A new line takes the oldest stamp left, or an extrapolated one (R8). -/
theorem State.takeStamp_eq (s : State) : ∃ u : State, s.takeStamp =
      ((s.lcu.fifo.drop s.surplus.length).headD (ahead s.lcu.lastStamp s.fdu.detect.ldiv), (s.lcu.fifo.drop s.surplus.length).isEmpty, u)
    ∧ u.lcu = { s.surplusLost.lcu with
        fifo := (s.lcu.fifo.drop s.surplus.length).tail
        lastStamp := (s.lcu.fifo.drop s.surplus.length).headD (ahead s.lcu.lastStamp s.fdu.detect.ldiv) }
    ∧ u.fdu = s.fdu ∧ u.csu = s.surplusLost.csu ∧ u.sac.counters.lost = s.surplusLost.sac.counters.lost
    ∧ u.sac.counters.extrapolated = (if s.lcu.fifo.drop s.surplus.length = [] then satAdd max32 s.surplusLost.sac.counters.extrapolated 1
        else s.surplusLost.sac.counters.extrapolated) := by
  have detects := s.surplusLost_detects
  have fdu : s.surplusLost.fdu = s.fdu := (State.foldl_addLoss_onlyLosses _ _ _).fdu
  have dropped : s.dropSurplus s.lcu.fifo = { s.surplusLost with lcu.fifo := s.lcu.fifo.drop s.surplus.length } := State.dropSurplus_eq _ _
  have last : s.surplusLost.lcu.lastStamp = s.lcu.lastStamp := (congrArg Lcu.lastStamp detects.lcu :)
  unfold State.takeStamp
  rw [dropped]
  cases hl : s.lcu.fifo.drop s.surplus.length with
  | nil =>
    dsimp only
    rw [last, fdu]
    exact ⟨_, rfl, rfl, rfl, rfl, rfl, rfl⟩
  | cons p rest => exact ⟨_, rfl, rfl, fdu, rfl, rfl, rfl⟩

theorem State.surplusLost_counts (hd : s.fdu.detect.ldiv ≠ 0) :
    s.surplusLost.sac.counters.lost[0] =
        (if s.surplus = [] then s.sac.counters.lost[0] else satAdd max32 s.sac.counters.lost[0] s.surplus.length)
      ∧ s.surplusLost.sac.counters.extrapolated = s.sac.counters.extrapolated
      ∧ (s.surplus ≠ [] → s.surplusLost.csu.causes.getLsbD 16 = true) := by
  unfold State.surplusLost
  cases hs : s.surplus with
  | nil => exact ⟨rfl, rfl, fun h => absurd rfl h⟩
  | cons p rest =>
    obtain ⟨lost, extrapolated, cause⟩ := State.foldl_addLoss_counters .triggerOverrun
      (rest.map fun p => stampRange p s.fdu.detect.ldiv) s (stampRange p s.fdu.detect.ldiv) fun x hx => by
        rw [← List.map_cons (f := fun p => stampRange p s.fdu.detect.ldiv)] at hx
        obtain ⟨q, -, rfl⟩ := List.mem_map.mp hx
        exact hd
    rw [List.map_cons, lost, extrapolated]
    exact ⟨(bump_same _ _ _).trans (by rw [List.length_map]; rfl), rfl, fun _ => cause⟩

/-! ### The slots of the image window -/

/-- A slot begins at the address (R6). -/
def State.slotBegins (s : State) (addr k : Nat) : Prop :=
  addr = s.tru.params.image.base + k * s.fdu.detect.linePx ∧ k < s.tru.params.image.size / s.fdu.detect.linePx

theorem State.slotAt_eq_some_iff (hpx : 0 < s.fdu.detect.linePx) {addr k : Nat} : s.slotAt addr = some k ↔ s.slotBegins addr k := by
  unfold State.slotAt State.slotBegins
  dsimp only
  generalize s.tru.params.image.base = base
  generalize s.tru.params.image.size / s.fdu.detect.linePx = n
  generalize s.fdu.detect.linePx = px at hpx
  constructor
  · intro h
    split at h
    · next c =>
      obtain ⟨le, aligned, lt⟩ := c
      have quotient : (addr - base) / px = k := Option.some.inj h
      have whole := Nat.div_add_mod (addr - base) px
      rw [aligned, quotient, Nat.mul_comm] at whole
      exact ⟨by omega, quotient ▸ lt⟩
    · exact absurd h nofun
  · rintro ⟨rfl, lt⟩
    have offset : base + k * px - base = k * px := Nat.add_sub_cancel_left _ _
    rw [offset, Nat.mul_mod_left, Nat.mul_div_cancel k hpx]
    exact if_pos ⟨Nat.le_add_right _ _, rfl, lt⟩

/-! ### A beat of the image -/

section
variable {addr : Nat} {data : List Byte} {enables : BitVec 32}

theorem State.beatInNoLine_ignored (hpx : 0 < s.fdu.detect.linePx) {full : Bool} (h : ¬(full = true ∧ ∃ k, s.slotBegins addr k)) :
    s.beatInNoLine addr data full = s := by
  unfold State.beatInNoLine
  split
  · next k slot => exact absurd ⟨rfl, k, (State.slotAt_eq_some_iff hpx).mp slot⟩ h
  · rfl

theorem State.beatInNoLine_begins {k : Nat} (h : s.slotAt addr = some k) : s.beatInNoLine addr data true =
    s.takeStamp.2.2.assembled
      { slot := k, stamp := s.takeStamp.1, extrapolated := s.takeStamp.2.1, received := 1, next := addr + 32, pixels := data } := by
  unfold State.beatInNoLine
  rw [h]
  rfl

theorem State.assembled_awaits {a : Assembly} (h : a.received * 32 < s.fdu.detect.linePx) :
    s.assembled a = { s with lcu.assembly := some a } := if_neg (Nat.not_le.mpr h)

theorem State.assembled_completes {a : Assembly} (h : s.fdu.detect.linePx ≤ a.received * 32) :
    s.assembled a = { s with lcu.assembly := none }.offerLine
      { stamp := a.stamp, extrapolated := a.extrapolated, slot := a.slot, pixels := a.pixels } := if_pos h

/-- A full beat at a slot start begins a line (R8). -/
theorem State.beatInNoLine_of_start {k : Nat} (hd : s.fdu.detect.ldiv ≠ 0) (hk : s.slotBegins addr k) (hpx : 32 < s.fdu.detect.linePx) :
    (s.beatInNoLine addr data true).lcu = { s.lcu with
        fifo := (s.lcu.fifo.drop s.surplus.length).tail
        lastStamp := (s.lcu.fifo.drop s.surplus.length).headD (ahead s.lcu.lastStamp s.fdu.detect.ldiv)
        gaps := (s.surplus.map fun p => stampRange p s.fdu.detect.ldiv).foldl gapAdd s.lcu.gaps
        assembly := some
          { slot := k, stamp := (s.lcu.fifo.drop s.surplus.length).headD (ahead s.lcu.lastStamp s.fdu.detect.ldiv)
            extrapolated := (s.lcu.fifo.drop s.surplus.length).isEmpty, received := 1, next := addr + 32, pixels := data } }
      ∧ (s.beatInNoLine addr data true).sac.counters.lost[0] =
        (if s.surplus = [] then s.sac.counters.lost[0] else satAdd max32 s.sac.counters.lost[0] s.surplus.length)
      ∧ (s.surplus ≠ [] → (s.beatInNoLine addr data true).csu.causes.getLsbD 16 = true)
      ∧ (s.beatInNoLine addr data true).sac.counters.extrapolated =
        (if s.lcu.fifo.drop s.surplus.length = [] then satAdd max32 s.sac.counters.extrapolated 1 else s.sac.counters.extrapolated)
      ∧ (s.beatInNoLine addr data true).fdu = s.fdu := by
  obtain ⟨u, stamp, lcu, fdu, csu, lost, extrapolated⟩ := s.takeStamp_eq
  obtain ⟨lost', extrapolated', cause⟩ := State.surplusLost_counts hd
  have gaps : s.surplusLost.lcu = { s.lcu with gaps := (s.surplus.map fun p => stampRange p s.fdu.detect.ldiv).foldl gapAdd s.lcu.gaps } := by
    rw [s.surplusLost_detects.lcu, State.surplusLost, State.foldl_addLoss_gaps]
  have slot := (State.slotAt_eq_some_iff (Nat.lt_trans (by decide) hpx)).mpr hk
  rw [State.beatInNoLine_begins slot, stamp, State.assembled_awaits (by rw [fdu]; exact hpx)]
  refine ⟨?_, ?_, fun h => ?_, ?_, fdu⟩
  · dsimp only
    rw [lcu, gaps]
  · dsimp only
    rw [lost, lost']
  · dsimp only
    rw [csu]
    exact cause h
  · dsimp only
    rw [extrapolated, extrapolated']

/-- A complete line that finds the queue empty begins analysis (R11, R20). -/
theorem State.offerLine_begins {l : Line} (hq : s.lcu.lineQueue = []) (hd : s.fdu.stagedDetect = none) :
    (s.offerLine l).lcu = { s.lcu with lineQueue := [l] } ∧ (s.offerLine l).fdu.analysis = some s.fdu.mode ∧ (s.offerLine l).sac = s.sac := by
  obtain ⟨w, hw⟩ : ∃ w : State, w = { s with lcu.lineQueue := [l] } := ⟨_, rfl⟩
  obtain ⟨d, takes, divider⟩ := w.takeFduTables_all
  have px : ¬(w.takeFduTables.fdu.detect.linePx ≠ w.fdu.detect.linePx ∧ w.takeFduTables.csu.inspection ≠ .off) := by
    have same : w.fdu.stagedDetect = none := by
      rw [hw]
      exact hd
    rw [takes, same]
    exact fun h => h.1 rfl
  have offers : s.offerLine l = { w.takeFduTables with fdu.analysis := some w.takeFduTables.fdu.mode } := by
    have begins : s.offerLine l = w.beginAnalysis := by
      rw [State.offerLine, hq, hw]
    rw [begins]
    unfold State.beginAnalysis
    rw [show w.lcu.lineQueue = [l] by rw [hw]]
    exact if_neg px
  rw [offers, takes, divider (by rw [hw]; exact hd), hw]
  exact ⟨rfl, rfl, rfl⟩

/-- A complete line that finds two in the queue is lost as an analysis overrun (R11). -/
theorem State.offerLine_lost {l : Line} (hq : 2 ≤ s.lcu.lineQueue.length) :
    s.offerLine l = s.addLoss .analysisOverrun (stampRange l.stamp s.fdu.detect.ldiv) := by
  unfold State.offerLine
  split
  · next h => rw [h] at hq; exact absurd hq (by decide)
  · next h => rw [h] at hq; exact absurd hq (by simp)
  · rfl

end

end Sys2Proof.Machine
end

section
/-! PROOFS. The beats of the image window, and what an own request is downstream (O42, its parts on beats). -/

namespace Sys2Proof.Machine

variable {s t u : State} {addr : Nat} {data : List Byte} {enables : BitVec 32}

/-! ### Observed image beats -/

theorem State.imageBeat_of_no_line (h : s.lcu.assembly = none) :
    s.imageBeat addr data enables = s.beatInNoLine addr data (enables == BitVec.allOnes 32) := by
  unfold State.imageBeat
  rw [h]

/-- A full beat at the expected address continues the line (R9). -/
theorem State.imageBeat_continues {a : Assembly} (h : s.lcu.assembly = some a) (full : enables = BitVec.allOnes 32) (ha : addr = a.next) :
    s.imageBeat addr data enables =
      s.assembled { a with received := a.received + 1, next := a.next + beatBytes, pixels := a.pixels ++ data } := by
  subst full ha
  unfold State.imageBeat
  rw [h]
  exact if_pos (by rw [beq_self_eq_true, beq_self_eq_true]; rfl)

/-- The line in assembly is lost as a line break (R10). -/
def State.lineBroken (a : Assembly) (s : State) : State :=
  { s.addLoss .lineBreak (stampRange a.stamp s.fdu.detect.ldiv) with lcu.assembly := none }

/-- Any other beat loses the line in assembly and is judged afresh (R10). -/
theorem State.imageBeat_breaks {a : Assembly} (h : s.lcu.assembly = some a) (hn : ¬(enables = BitVec.allOnes 32 ∧ addr = a.next)) :
    s.imageBeat addr data enables = (s.lineBroken a).imageBeat addr data enables := by
  rw [State.imageBeat_of_no_line (s := s.lineBroken a) rfl]
  unfold State.imageBeat
  rw [h]
  refine if_neg fun c => hn ?_
  rw [Bool.and_eq_true, beq_iff_eq, beq_iff_eq] at c
  exact c

theorem State.lineBroken_facts {a : Assembly} (hd : s.fdu.detect.ldiv ≠ 0) :
    (s.lineBroken a).lcu = { s.lcu with assembly := none, gaps := gapAdd s.lcu.gaps (stampRange a.stamp s.fdu.detect.ldiv) }
      ∧ (s.lineBroken a).sac.counters = { s.sac.counters with
          lost := bump s.sac.counters.lost 1 1, lostLength := bump s.sac.counters.lostLength 1 s.fdu.detect.ldiv }
      ∧ (s.lineBroken a).csu.causes.getLsbD 16 = true ∧ (s.lineBroken a).fdu = s.fdu ∧ (s.lineBroken a).ppl = s.ppl
      ∧ (s.lineBroken a).cdu = s.cdu ∧ (s.lineBroken a).tru.params = s.tru.params := by
  have detects := State.addLoss_detects .lineBreak (stampRange a.stamp s.fdu.detect.ldiv) s
  refine ⟨?_, State.addLoss_counters _ _ _ hd, State.addLoss_lineLoss _ _ _ hd, State.addLoss_fdu _ _ _, State.addLoss_ppl _ _ _,
    State.addLoss_cdu _ _ _, State.addLoss_tru_params _ _ _⟩
  calc (s.lineBroken a).lcu
      _ = { (s.addLoss .lineBreak (stampRange a.stamp s.fdu.detect.ldiv)).lcu with assembly := none } := rfl
      _ = _ := by rw [detects.lcu, State.addLoss_gaps]

theorem State.offerLine_waits {l first : Line} (hq : s.lcu.lineQueue = [first]) :
    s.offerLine l = { s with lcu.lineQueue := [first, l] } := by
  unfold State.offerLine
  rw [hq]

/-- A complete line lost as an analysis overrun (R11, R17). -/
theorem State.offerLine_overrun {l : Line} (hd : s.fdu.detect.ldiv ≠ 0) (hq : 2 ≤ s.lcu.lineQueue.length) :
    (s.offerLine l).lcu = { s.lcu with gaps := gapAdd s.lcu.gaps (stampRange l.stamp s.fdu.detect.ldiv) }
      ∧ (s.offerLine l).sac.counters.lost[2] = satAdd max32 s.sac.counters.lost[2] 1
      ∧ (s.offerLine l).sac.counters.lostLength[2] = satAdd max32 s.sac.counters.lostLength[2] s.fdu.detect.ldiv
      ∧ (s.offerLine l).csu.causes.getLsbD 16 = true ∧ (s.offerLine l).fdu = s.fdu := by
  rw [State.offerLine_lost hq]
  refine ⟨?_, ?_, ?_, State.addLoss_lineLoss _ _ _ hd, State.addLoss_fdu _ _ _⟩
  · rw [(State.addLoss_detects _ _ _).lcu, State.addLoss_gaps]
  · rw [State.addLoss_counters _ _ _ hd]
    exact bump_same _ _ _
  · rw [State.addLoss_counters _ _ _ hd]
    exact bump_same _ _ _

/-! ### Which beats the line capture unit sees -/

theorem State.observe_of_no_enable (x : BeatClass × Nat × Beat) (h : x.2.2.enables = 0) : s.observe x = s := if_pos h

theorem State.observe_image (b : Beat) (h : b.enables ≠ 0) :
    s.observe (.image, addr, b) = if s.inspecting then s.imageBeat addr b.data b.enables else s := if_neg h

theorem State.observe_image_of_not_inspecting (b : Beat) (h : s.inspecting = false) : s.observe (.image, addr, b) = s := by
  by_cases he : b.enables = 0
  · exact State.observe_of_no_enable _ he
  · rw [State.observe_image b he, h]
    exact if_neg Bool.false_ne_true

/-! ### Own requests downstream -/

/-- The beats of a block of bytes hold its bytes. -/
theorem flatMap_beats (data : List Byte) (n : Nat) :
    ((List.range n).map fun i => ({ data := (data.drop (beatBytes * i)).take beatBytes, enables := BitVec.allOnes 32 } : Beat)).flatMap Beat.data
      = data.take (beatBytes * n) := by
  induction n with
  | zero => rfl
  | succ n ih =>
    rw [List.range_succ, List.map_append, List.flatMap_append, ih, Nat.mul_succ, List.take_add]
    exact congrArg _ (List.append_nil _)

theorem OwnRequest.wire_facts (r : OwnRequest) :
    r.wire.kind = r.kind ∧ r.wire.addr.toNat = r.addr % 2 ^ 40 ∧ r.wire.length = r.beats ∧ r.wire.tag = 0xFF
      ∧ (r.kind = .read → r.wire.beats = [])
      ∧ (r.kind = .write → r.data.length = 32 * r.beats →
          r.wire.beats.length = r.beats ∧ r.wire.beats.flatMap Beat.data = r.data
          ∧ ∀ b ∈ r.wire.beats, ∀ j, j < 32 → b.enables.getLsbD j = true) := by
  have beats : r.kind = .write → r.wire.beats =
      (List.range r.beats).map fun i => { data := (r.data.drop (beatBytes * i)).take beatBytes, enables := BitVec.allOnes 32 } := fun h => by
    unfold OwnRequest.wire
    dsimp only
    rw [h]
  refine ⟨rfl, BitVec.toNat_ofNat _ _, rfl, rfl, fun h => ?_, fun h hlen => ⟨?_, ?_, fun b hb j hj => ?_⟩⟩
  · unfold OwnRequest.wire
    dsimp only
    rw [h]
  · rw [beats h, List.length_map, List.length_range]
  · rw [beats h, flatMap_beats]
    exact List.take_of_length_le (Nat.le_of_eq hlen)
  · rw [beats h] at hb
    obtain ⟨i, -, rfl⟩ := List.mem_map.mp hb
    exact (BitVec.getLsbD_allOnes).trans (decide_eq_true hj)

end Sys2Proof.Machine
end

section
/-! PROOFS. The downstream arbiter (R135) and the settlement of O42. -/

namespace Sys2Proof.Machine

variable {s t u : State} {addr : Nat} {data : List Byte} {enables : BitVec 32}

/-! ### What the observation of a beat leaves as it is -/

/-- `t` is `s` with a beat observed (R130): the cutter dispatch unit, and the queues, the counts and the requests in flight of the
transit unit, are as before. -/
structure State.Sees (s t : State) : Prop where
  cdu : t.cdu = s.cdu
  tru : t.tru = { s.tru with
    placing := t.tru.placing, ackShadow := t.tru.ackShadow, enableShadow := t.tru.enableShadow, stopShadow := t.tru.stopShadow }

theorem State.Sees.refl (s : State) : s.Sees s := ⟨rfl, rfl⟩

theorem State.Sees.trans (h : s.Sees t) (h' : t.Sees u) : s.Sees u where
  cdu := h'.cdu.trans h.cdu
  tru := by rw [h'.tru, h.tru]

theorem State.Detects.sees (h : s.Detects t) : s.Sees t := ⟨h.cdu, by rw [h.tru]⟩

theorem State.ChangesChannel.sees {ch : Fin 3} (h : s.ChangesChannel ch t) : s.Sees t := ⟨h.cdu, by rw [h.tru]⟩

theorem State.surplusLost_sees (s : State) : s.Sees s.surplusLost := s.surplusLost_detects.sees

theorem State.takeStamp_sees (s : State) : s.Sees s.takeStamp.2.2 := by
  have dropped : s.Sees (s.dropSurplus s.lcu.fifo) := by
    rw [State.dropSurplus_eq]
    exact s.surplusLost_sees.trans ⟨rfl, rfl⟩
  unfold State.takeStamp
  dsimp only
  split <;> exact dropped.trans ⟨rfl, rfl⟩

theorem State.takeFduTables_sees (s : State) : s.Sees s.takeFduTables := by
  obtain ⟨d, f, takes, -⟩ := s.takeFduTables_eq
  rw [takes]
  exact ⟨rfl, rfl⟩

theorem State.discardLines_sees (ldiv : Nat) (s : State) : s.Sees (s.discardLines ldiv) :=
  (foldl_related State.Sees.refl State.Sees.trans _ s fun u p _ => (State.addLoss_detects .lineBreak (stampRange p ldiv) u).sees).trans
    ⟨rfl, rfl⟩

theorem State.beginAnalysis_sees (s : State) : s.Sees s.beginAnalysis := by
  unfold State.beginAnalysis
  split
  · exact .refl s
  · dsimp only
    split
    · exact s.takeFduTables_sees.trans (State.discardLines_sees _ _)
    · exact s.takeFduTables_sees.trans ⟨rfl, rfl⟩

theorem State.offerLine_sees (l : Line) (s : State) : s.Sees (s.offerLine l) := by
  unfold State.offerLine
  split
  · exact State.Sees.trans (t := { s with lcu.lineQueue := [l] }) ⟨rfl, rfl⟩ (State.beginAnalysis_sees _)
  · exact ⟨rfl, rfl⟩
  · exact (State.addLoss_detects _ _ s).sees

theorem State.assembled_sees (a : Assembly) (s : State) : s.Sees (s.assembled a) := by
  unfold State.assembled
  split
  · exact State.Sees.trans (t := { s with lcu.assembly := none }) ⟨rfl, rfl⟩ (State.offerLine_sees _ _)
  · exact ⟨rfl, rfl⟩

theorem State.beatInNoLine_sees (addr : Nat) (data : List Byte) (full : Bool) (s : State) : s.Sees (s.beatInNoLine addr data full) := by
  unfold State.beatInNoLine
  split
  · exact s.takeStamp_sees.trans (State.assembled_sees _ _)
  · exact .refl s

theorem State.imageBeat_sees (addr : Nat) (data : List Byte) (enables : BitVec 32) (s : State) :
    s.Sees (s.imageBeat addr data enables) := by
  unfold State.imageBeat
  dsimp only
  split
  · exact State.beatInNoLine_sees _ _ _ s
  · next a _ =>
    split
    · exact State.assembled_sees _ s
    · have broken : s.Sees (s.lineBroken a) := (State.addLoss_detects .lineBreak _ s).sees.trans ⟨rfl, rfl⟩
      exact broken.trans (State.beatInNoLine_sees _ _ _ _)

theorem State.slotBeat_sees (n : Fin 8) (data : List Byte) (enables : BitVec 32) (s : State) : s.Sees (s.slotBeat n data enables) := by
  unfold State.slotBeat
  dsimp only
  split
  · split <;> exact ⟨rfl, rfl⟩
  · exact ⟨rfl, rfl⟩

theorem State.ackWritten_sees (word : Word) (enables : BitVec 4) (s : State) : s.Sees (s.ackWritten word enables) := by
  unfold State.ackWritten State.setCauses
  dsimp only
  split
  · exact ⟨rfl, rfl⟩
  · refine ⟨State.requestStatus_cdu _, ?_⟩
    rw [State.requestStatus_tru]

theorem State.stopWritten_sees (ch : Fin 3) (word : Word) (enables : BitVec 4) (s : State) : s.Sees (s.stopWritten ch word enables) := by
  unfold State.stopWritten
  split
  · exact .refl s
  · obtain ⟨u, hu⟩ : ∃ u : State, u =
        { s with tru.stopShadow := s.tru.stopShadow.set ch (mergeWord (s.stopWord ch) word enables) } := ⟨_, rfl⟩
    have shadow : s.Sees u := by
      rw [hu]
      exact ⟨rfl, rfl⟩
    rw [← hu]
    refine shadow.trans ?_
    unfold State.stopWordWritten
    split
    · exact (State.moveOn_changes ch u).sees
    · exact .refl u

theorem State.enableWritten_sees (word : Word) (enables : BitVec 4) (s : State) : s.Sees (s.enableWritten word enables) := ⟨rfl, rfl⟩

theorem State.controlWordsBeat_sees (data : List Byte) (enables : BitVec 32) (s : State) : s.Sees (s.controlWordsBeat data enables) :=
  ((((State.ackWritten_sees _ _ s).trans (State.enableWritten_sees _ _ _)).trans (State.stopWritten_sees 0 _ _ _)).trans
    (State.stopWritten_sees 1 _ _ _)).trans (State.stopWritten_sees 2 _ _ _)

theorem State.observe_sees (s : State) (x : BeatClass × Nat × Beat) : s.Sees (s.observe x) := by
  unfold State.observe
  split
  · exact .refl s
  · split
    · split
      · exact State.imageBeat_sees _ _ _ s
      · exact .refl s
    · exact State.slotBeat_sees _ _ _ s
    · exact State.controlWordsBeat_sees _ _ s
    all_goals exact .refl s

theorem State.forward_sees {e : TransitEntry} {st : TransitState} (s : State) :
    ((s.candidateTakes st).countHits e.hits).Sees (s.forward e st) := by
  rw [State.forward_eq]
  split
  · exact .refl _
  · exact foldl_related State.Sees.refl State.Sees.trans _ _ fun u x _ => u.observe_sees x

theorem State.forward_lcu {e : TransitEntry} {st : TransitState} : (s.forward e st).lcu =
    (if e.req.kind = .write then e.maskedBeats.foldl State.observe ((s.candidateTakes st).countHits e.hits) else s.candidateTakes st).lcu := by
  rw [State.forward_eq]
  cases e.req.kind with
  | read => exact (State.countHits_counts _ _).lcu
  | write => rfl

/-! ### Grants -/

/-- The own requests queued stay queued, oldest first, at the close of an event (R132). -/
theorem State.own_grows_finish (s : State) : s.tru.own <+: s.finish.tru.own := by
  have own : s.completeLoads.writeAll.classifyCandidate.tru.own = s.tru.own := by
    rw [State.classifyCandidate_tru_own, State.writeAll_tru_own, State.completeLoads_tru_own]
  exact ⟨_, (congrArg (· ++ _) own.symm :)⟩

/-- The close of an event changes no upstream request. -/
theorem State.finish_transit_req (s : State) : s.finish.tru.transit.map TransitEntry.req = s.tru.transit.map TransitEntry.req := by
  have same : s.completeLoads.writeAll.tru.transit = s.tru.transit := by rw [State.writeAll_tru_transit, State.completeLoads_tru_transit]
  have kept := map_req_onFirst TransitEntry.isPending
    (g := fun e => if e.classes.isNone then { e with classes := some (s.completeLoads.writeAll.classify e.req) } else e)
    (fun e => by split <;> rfl) s.completeLoads.writeAll.tru.transit
  rw [same] at kept
  rw [← kept, ← same]
  rfl

/-- With the candidate classified, the close of an event leaves the transit queue as it is. -/
theorem State.finish_transit_of_classified (h : s.candidateClassified = true) : s.finish.tru.transit = s.tru.transit := by
  have same : s.completeLoads.writeAll.tru.transit = s.tru.transit := by rw [State.writeAll_tru_transit, State.completeLoads_tru_transit]
  have classified := State.classifyCandidate_of_classified (s := s.completeLoads.writeAll) ((State.classified_congr same).trans h)
  rw [← same, State.finish, classified]
  rfl

/-- A granted own request leaves its queue and goes downstream; nothing else of the transit unit's queues changes (R132, R135). -/
theorem State.grantOwn_facts (r : OwnRequest) (s : State) :
    (s.grantOwn r).tru.flight = s.tru.flight ++ [.own { r with data := s.grantedData r }] ∧ (s.grantOwn r).tru.share = 0
      ∧ (s.grantOwn r).tru.own = s.tru.own.tail ∧ (s.grantOwn r).tru.transit = s.tru.transit
      ∧ (s.grantOwn r).cdu = s.cdu ∧ (s.grantOwn r).lcu = s.lcu := by
  rw [State.grantOwn_eq, State.statusGranted]
  split
  · rw [State.completeWith_tru_flight, State.completeWith_tru_share, State.completeWith_tru_own, State.completeWith_tru_transit,
      State.completeWith_cdu, State.completeWith_lcu]
    exact ⟨rfl, rfl, rfl, rfl, rfl, rfl⟩
  · exact ⟨rfl, rfl, rfl, rfl, rfl, rfl⟩

/-- A granted candidate goes downstream as masked (R126, R135). -/
theorem State.grantTransit_facts (e : TransitEntry) (s : State) :
    (s.grantTransit e).tru.flight = s.tru.flight ++ [.transit e.wire]
      ∧ (s.grantTransit e).tru.share = (if s.ownReady.isSome then s.tru.share + 1 else s.tru.share)
      ∧ (s.grantTransit e).tru.own = s.tru.own
      ∧ (s.grantTransit e).tru.transit.map TransitEntry.req = s.tru.transit.map TransitEntry.req
      ∧ (s.grantTransit e).tru.hits = s.tru.hits + BitVec.ofNat 32 e.hits
      ∧ (s.grantTransit e).cdu = s.cdu ∧ (s.grantTransit e).lcu.counter = s.lcu.counter := by
  obtain ⟨u, hu⟩ : ∃ u : State, u = { s with
      tru.flight := s.tru.flight ++ [InFlight.transit e.wire]
      tru.share := if s.ownReady.isSome then s.tru.share + 1 else s.tru.share } := ⟨_, rfl⟩
  have grants : s.grantTransit e = u.forward e .forwarded := by rw [hu]; rfl
  have sees := u.forward_sees (e := e) (st := .forwarded)
  have counts := State.countHits_counts e.hits (u.candidateTakes .forwarded)
  have reqs : (u.candidateTakes .forwarded).tru.transit.map TransitEntry.req = u.tru.transit.map TransitEntry.req :=
    map_req_onFirst _ (g := fun e => { e with state := .forwarded }) (fun _ => rfl) _
  have counter := (State.forward_orderly e .forwarded u).counter
  rw [grants, sees.tru, sees.cdu, counter, counts.flight, counts.share, counts.own, counts.transit, reqs, counts.hits, counts.cdu, hu]
  exact ⟨rfl, rfl, rfl, rfl, rfl, rfl, rfl⟩

/-- The arbiter chooses (R135). -/
theorem State.grant_own {r : OwnRequest} (hr : s.ownReady = some r) (h : s.transitReady = none ∨ s.tru.params.ownShare ≤ s.tru.share) :
    s.grant = s.grantOwn r := by
  unfold State.grant
  rw [hr]
  cases he : s.transitReady with
  | none => rfl
  | some e => exact if_pos (h.resolve_left (by rw [he]; nofun))

theorem State.grant_transit {e : TransitEntry} (he : s.transitReady = some e)
    (h : s.ownReady = none ∨ s.tru.share < s.tru.params.ownShare) : s.grant = s.grantTransit e := by
  unfold State.grant
  rw [he]
  cases hr : s.ownReady with
  | none => rfl
  | some r => exact if_neg (Nat.not_le.mpr (h.resolve_left (by rw [hr]; nofun)))

theorem State.grant_none (he : s.transitReady = none) (hr : s.ownReady = none) : s.grant = s := by
  unfold State.grant
  rw [he, hr]

/-- A grant moves neither the bridges nor the ribbon counter. -/
theorem State.grant_keeps (s : State) : s.grant.cdu = s.cdu ∧ s.grant.lcu.counter = s.lcu.counter := by
  unfold State.grant
  have own (r : OwnRequest) : (s.grantOwn r).cdu = s.cdu ∧ (s.grantOwn r).lcu.counter = s.lcu.counter := by
    obtain ⟨-, -, -, -, cdu, lcu⟩ := s.grantOwn_facts r
    exact ⟨cdu, by rw [lcu]⟩
  have transit (e : TransitEntry) : (s.grantTransit e).cdu = s.cdu ∧ (s.grantTransit e).lcu.counter = s.lcu.counter := by
    obtain ⟨-, -, -, -, -, cdu, counter⟩ := s.grantTransit_facts e
    exact ⟨cdu, counter⟩
  split
  · exact transit _
  · exact own _
  · split
    · exact own _
    · exact transit _
  · exact ⟨rfl, rfl⟩

/-- Settles O42. -/
theorem arbiterGrants : Obligations.ArbiterGrants := by
  refine ⟨fun s hq => ?_, OwnRequest.wire_facts, fun s addr b =>
    ⟨State.observe_of_no_enable (.image, addr, b), fun off => ?_, fun on enabled => ?_⟩, fun s addr data enables => ?_⟩
  · obtain ⟨settled, closed⟩ := State.quiet_iff.mp hq
    have keeps := s.clearOutputs.grant_keeps
    refine ⟨_, command_next settled, fun he hr => ?_, fun r hr h => ?_, fun e he h => ?_, ?_, ?_⟩
    · rw [State.grant_none (s := s.clearOutputs) he hr]
      exact State.finish_of_closed closed
    · obtain ⟨flight, share, own, transit, -, -⟩ := s.clearOutputs.grantOwn_facts r
      have classified : s.clearOutputs.candidateClassified = true := (State.atRest_clearOutputs closed).candidate
      rw [State.grant_own (s := s.clearOutputs) hr h, State.finish_tru_flight, State.finish_tru_share, flight, share,
        State.finish_transit_of_classified ((State.classified_congr transit).trans classified), transit]
      exact ⟨rfl, rfl, own ▸ State.own_grows_finish _, rfl⟩
    · obtain ⟨flight, share, own, transit, hits, -, -⟩ := s.clearOutputs.grantTransit_facts e
      dsimp only
      rw [State.grant_transit (s := s.clearOutputs) he h, State.finish_tru_flight, State.finish_tru_share, State.finish_tru_hits,
        State.finish_transit_req, State.finish_lcu, flight, share, transit, hits]
      exact ⟨rfl, rfl, own ▸ State.own_grows_finish _, rfl, rfl, State.forward_lcu⟩
    · rw [State.finish_cdu]
      exact congrArg Cdu.bridges keeps.1
    · rw [State.finish_lcu]
      exact keeps.2
  · refine State.observe_image_of_not_inspecting b ((Bool.not_eq_true _).mp fun h => ?_)
    rcases s.inspecting_iff.mp h with h | h <;> rw [h] at off <;> rcases off with off | off <;> exact absurd off nofun
  · rw [State.observe_image b enabled, s.inspecting_iff.mpr on]
    rfl
  · intro px window full slotStart t range hpx hd
    refine ⟨fun idle h => ?_, fun k idle full start wide => ?_, fun a ha =>
      ⟨fun full next more => ?_, fun full next last => ?_, fun other => ?_⟩⟩
    · have ignored : ¬((enables == BitVec.allOnes 32) = true ∧ ∃ k, s.slotBegins addr k) := fun c => h ⟨beq_iff_eq.mp c.1, c.2⟩
      exact (State.imageBeat_of_no_line idle).trans (State.beatInNoLine_ignored hpx ignored)
    · have begins : s.imageBeat addr data enables = s.beatInNoLine addr data true := by
        rw [State.imageBeat_of_no_line idle, beq_iff_eq.mpr full]
      obtain ⟨lcu, lost, cause, extrapolated, fdu⟩ := State.beatInNoLine_of_start (data := data) hd start wide
      dsimp only [t]
      rw [begins]
      exact ⟨lcu, lost, cause, extrapolated, fdu⟩
    · refine (State.imageBeat_continues ha full next).trans (State.assembled_awaits ?_)
      exact Nat.mul_comm 32 _ ▸ more
    · have completes : t = { s with lcu.assembly := none }.offerLine
          { stamp := a.stamp, extrapolated := a.extrapolated, slot := a.slot, pixels := a.pixels ++ data } :=
        (State.imageBeat_continues ha full next).trans (State.assembled_completes (Nat.mul_comm 32 _ ▸ last))
      rw [completes]
      refine ⟨fun idle unstaged => State.offerLine_begins (s := { s with lcu.assembly := none }) idle unstaged,
        fun first one => State.offerLine_waits (s := { s with lcu.assembly := none }) one,
        fun two => State.offerLine_overrun (s := { s with lcu.assembly := none }) hd two⟩
    · obtain ⟨lcu, counters, cause, fdu, ppl, cdu, params⟩ := State.lineBroken_facts (a := a) hd
      exact ⟨s.lineBroken a, lcu, counters, cause, fdu, ppl, cdu, params, State.imageBeat_breaks ha other⟩

end Sys2Proof.Machine
end

section
/-! PROOFS. What the readers of the tables refuse and correct (O57, its part on values). -/

namespace Sys2Proof.Machine

/-! ### Values brought into their ranges -/

theorem max_one_eq (v : Nat) : max 1 v = if v = 0 then 1 else v := by
  split <;> omega

theorem min_eq_ite (hi v : Nat) : min hi v = if hi < v then hi else v := by
  split <;> omega

theorem max_eq_ite (lo v : Nat) : max lo v = if v < lo then lo else v := by
  split <;> omega

theorem clamp_eq_ite {lo hi : Nat} (h : lo ≤ hi) (v : Nat) : clamp lo hi v = if v < lo then lo else if hi < v then hi else v := by
  unfold clamp
  split
  · omega
  · split <;> omega

theorem gradeOf_eq (n : Nat) : gradeOf n = if n % 4 = 0 then Grade.a else if n % 4 = 1 then .b else if n % 4 = 2 then .c else .cull := by
  have table : ∀ k, k < 4 → gradeOf k = if k % 4 = 0 then Grade.a else if k % 4 = 1 then .b else if k % 4 = 2 then .c else .cull := by decide
  have reduced := table (n % 4) (Nat.mod_lt n (by decide))
  rw [Nat.mod_mod] at reduced
  rw [← reduced]
  unfold gradeOf
  rw [Nat.mod_mod]

theorem encEdgeOf_eq (v : Nat) : encEdgeOf v = if v = 1 then .falling else if v = 2 then .both else .rising := by
  match v with
  | 0 | 1 | 2 => rfl
  | v + 3 => rfl

theorem polarityEnableOf_eq (v : Nat) : polarityEnableOf v = if v = 1 then .dark else if v = 2 then .bright else .both := by
  match v with
  | 0 | 1 | 2 => rfl
  | v + 3 => rfl

/-! ### The structure of a table -/

section
variable {control : Nat} {k : TableKind} {b : List Byte}

/-- The code of each kind (11.6). -/
def TableKind.code : TableKind → Nat
  | .transit => 1
  | .detect => 2
  | .column => 3
  | .cls => 4
  | .grade => 5
  | .product => 6
  | .link => 7
  | .shift => 8

theorem tableKindOf_eq_some_iff {c : Nat} : tableKindOf c = some k ↔ c = k.code := by
  constructor
  · intro h
    unfold tableKindOf at h
    split at h <;> cases h <;> rfl
  · rintro rfl
    cases k <;> rfl

/-- A table whose header does not name its kind and length is refused (R169). -/
theorem readTable_refused (h : ¬(byteAt b 0 = k.code ∧ field b 4 4 = k.length)) : readTable control k b = none :=
  if_pos (Decidable.not_and_iff_or_not.mp fun c => h ⟨tableKindOf_eq_some_iff.mp c.1, c.2⟩)

/-- What the rule of its kind makes of a table (R163). -/
def TableKind.judge (control : Nat) (b : List Byte) : TableKind → Option TableBody
  | .transit => (readTransit control b).map .transit
  | .detect => (readDetect b).map .detect
  | .column => some (.column (readColumn b))
  | .cls => (readClass b).map .cls
  | .grade => some (.grade (readGrade b))
  | .product => (readProduct b).map .product
  | .link => some (.link (readLink b))
  | .shift => some (.shift (readShift b))

/-- A table whose header names its kind and length is judged by the rule of its kind (R163, R169). -/
theorem readTable_headed (h : byteAt b 0 = k.code ∧ field b 4 4 = k.length) : readTable control k b = k.judge control b := by
  have named : ¬(tableKindOf (byteAt b 0) ≠ some k ∨ field b 4 4 ≠ k.length) := fun c =>
    c.elim (absurd (tableKindOf_eq_some_iff.mpr h.1)) (absurd h.2)
  unfold readTable
  rw [if_neg named]
  cases k <;> rfl

/-! ### DETECT, COLUMN and CLASS -/

/-- What R33 refuses in a DETECT table. -/
def detectBad (b : List Byte) : Prop :=
  field b 0x20 2 < 256 ∨ 8192 < field b 0x20 2 ∨ field b 0x20 2 % 32 ≠ 0 ∨ field b 0x24 2 < field b 0x22 2
    ∨ field b 0x20 2 - 1 < field b 0x24 2

theorem readDetect_refused (h : detectBad b) : readDetect b = none := if_pos h

theorem readDetect_corrected (h : ¬detectBad b) : readDetect b = some
    { linePx := field b 0x20 2, spanFirst := field b 0x22 2, spanLast := field b 0x24 2
      ldiv := if byteAt b 0x26 = 0 then 1 else byteAt b 0x26
      encEdge := if byteAt b 0x27 = 1 then .falling else if byteAt b 0x27 = 2 then .both else .rising
      polarityEnable := if byteAt b 0x28 = 1 then .dark else if byteAt b 0x28 = 2 then .bright else .both
      thDark := max 1 (byteAt b 0x29), tlDark := min (max 1 (byteAt b 0x29)) (max 1 (byteAt b 0x2A))
      thBright := max 1 (byteAt b 0x2B), tlBright := min (max 1 (byteAt b 0x2B)) (max 1 (byteAt b 0x2C))
      minRun := clamp 1 8 (byteAt b 0x2D), joinCols := min 15 (byteAt b 0x2E), gapLines := min 7 (byteAt b 0x2F)
      trackShift := clamp 1 12 (byteAt b 0x30), learnShift := min 4 (byteAt b 0x31), learnLines := max 1 (byteAt b 0x32)
      maxBlobCounts := clamp 64 1048575 (field b 0x34 4), colPitchUm := clamp 10 2000 (field b 0x38 2)
      countUm := clamp 1 1000 (field b 0x3A 2) } := by
  rw [← max_one_eq, ← encEdgeOf_eq, ← polarityEnableOf_eq]
  exact if_neg h

/-- COLUMN: each gain code is its byte, at most 63 (R34). -/
theorem gainOf_readColumn (hb : 0x2020 ≤ b.length) {c : Nat} (hc : c < 8192) : gainOf (readColumn b) c = min 63 (byteAt b (0x20 + c)) := by
  have get := Cells.get_ofList maskedGain (((b.drop 0x20).take columnCount).map fun x => min 63 x.toNat) 0 c
  rw [Nat.zero_add] at get
  have inside : 0x20 + c < b.length := by omega
  refine get.trans ?_
  rw [byteAt, List.getD_eq_getElem?_getD, List.getD_eq_getElem?_getD, List.getElem?_map, List.getElem?_take_of_lt (show c < columnCount from hc),
    List.getElem?_drop, List.getElem?_eq_getElem inside]
  rfl

/-- What R57 refuses in a CLASS table. -/
def classBad (b : List Byte) : Prop := 16 < byteAt b 0x20 ∨ ∃ r, r < byteAt b 0x20 ∧ 14 < byteAt b (0x40 + 16 * r)

theorem classBad_iff : classBad b ↔
    16 < byteAt b 0x20 ∨ (List.range (byteAt b 0x20)).any (fun r => decide (14 < byteAt b (0x40 + 16 * r))) = true := by
  simp only [classBad, List.any_eq_true, List.mem_range, decide_eq_true_eq]

theorem readClass_refused (h : classBad b) : readClass b = none := if_pos (classBad_iff.mp h)

theorem readClass_corrected (h : ¬classBad b) : readClass b = some
    { rules := (List.range (byteAt b 0x20)).map (readRule b), classes := Vector.ofFn fun k : Fin 16 => readClassEntry b k.val } :=
  if_neg fun c => h (classBad_iff.mpr c)

theorem readRule_of_not_bad {r : Nat} (h : ¬classBad b) (hr : r < byteAt b 0x20) :
    (readRule b r).cls.val = byteAt b (0x40 + 16 * r) := by
  have small : byteAt b (0x40 + 16 * r) ≤ 14 := Nat.le_of_not_lt fun c => h (.inr ⟨r, hr, c⟩)
  exact Nat.mod_eq_of_lt (by omega)

/-! ### PRODUCT -/

theorem any_toList_ofFn {α : Type} {n : Nat} (f : Fin n → α) (p : α → Bool) :
    (Vector.ofFn f).toList.any p = true ↔ ∃ k, ∃ h : k < n, p (f ⟨k, h⟩) = true := by
  rw [Vector.toList_ofFn, List.any_eq_true, ← Fin.exists_iff (p := fun k => p (f k) = true)]
  constructor
  · rintro ⟨x, hx, h⟩
    obtain ⟨i, rfl⟩ := List.mem_ofFn.mp hx
    exact ⟨i, h⟩
  · rintro ⟨i, h⟩
    exact ⟨f i, List.mem_ofFn.mpr ⟨i, rfl⟩, h⟩

/-- A product slot as it is read (R98). -/
def readProductSlot (b : List Byte) (p : Nat) : Product where
  length := max (max 1 (field b 0x60 3)) (field b (0x20 + 8 * p) 3)
  floor := gradeOf (byteAt b (0x23 + 8 * p))
  enabled := decide (byteAt b (0x24 + 8 * p) % 2 = 1)

theorem readProductSlot_eq (b : List Byte) (p : Nat) : readProductSlot b p =
    { length := max (max 1 (field b 0x60 3)) (field b (0x20 + 8 * p) 3), floor := gradeOf (byteAt b (0x20 + 8 * p + 3))
      enabled := (byteAt b (0x20 + 8 * p + 4)).testBit 0 } := by
  rw [readProductSlot, Nat.testBit_zero, Nat.add_right_comm 0x20 _ 3, Nat.add_right_comm 0x20 _ 4]

theorem readProduct_eq (b : List Byte) : readProduct b =
    if (Vector.ofFn fun p : Fin 8 => readProductSlot b p.val).toList.any Product.enabled then some
      { products := Vector.ofFn fun p : Fin 8 => readProductSlot b p.val
        minStrip := max 1 (field b 0x60 3), cutClear := field b 0x64 2, settle := field b 0x68 3 }
    else none := by
  simp only [readProductSlot_eq]
  rfl

theorem anyEnabled_iff : (Vector.ofFn fun p : Fin 8 => readProductSlot b p.val).toList.any Product.enabled = true
    ↔ ∃ p, p < 8 ∧ byteAt b (0x24 + 8 * p) % 2 = 1 := by
  rw [any_toList_ofFn]
  simp only [readProductSlot, decide_eq_true_eq, exists_prop]

/-! ### GRADE and SHIFT -/

theorem testBit_one_eq (n : Nat) : n.testBit 1 = decide (n / 2 % 2 = 1) := Nat.testBit_eq_decide_div_mod_eq

theorem testBit_two_eq (n : Nat) : n.testBit 2 = decide (n / 4 % 2 = 1) := Nat.testBit_eq_decide_div_mod_eq

/-! ### TRANSIT -/

/-- What R136 refuses of a window. -/
def windowBad (control : Nat) (w : Window) : Prop :=
  w.base % 4096 ≠ 0 ∨ w.size % 4096 ≠ 0
    ∨ (w.size ≠ 0 ∧ (2 ^ 40 < w.base + w.size ∨ ∃ a, control ≤ a ∧ a < control + 4096 ∧ w.base ≤ a ∧ a < w.base + w.size))

/-- Two ranges that hold a byte share one exactly if each begins before the other ends. -/
theorem shared_iff {c d lo hi : Nat} (hc : c < d) (hl : lo < hi) : (∃ a, c ≤ a ∧ a < d ∧ lo ≤ a ∧ a < hi) ↔ lo < d ∧ c < hi := by
  constructor
  · rintro ⟨a, h1, h2, h3, h4⟩
    exact ⟨by omega, by omega⟩
  · rintro ⟨h1, h2⟩
    exact ⟨max c lo, Nat.le_max_left _ _, by omega, Nat.le_max_right _ _, by omega⟩

theorem Window.refused_iff {w : Window} : w.refused control = true ↔ windowBad control w := by
  unfold Window.refused windowBad
  simp only [Bool.or_eq_true, Bool.and_eq_true, decide_eq_true_eq, or_assoc]
  refine or_congr_right (or_congr_right (and_congr_right fun present => or_congr_right ?_))
  exact (shared_iff (Nat.lt_add_of_pos_right (by decide)) (Nat.lt_add_of_pos_right (Nat.pos_of_ne_zero present))).symm

/-- A TRANSIT table is refused for a bad window or an image window beyond 2^30 (R136). -/
theorem transitRefused_iff :
    ((readWindow b 0).refused control || (Vector.ofFn fun k : Fin 6 => readWindow b (k.val + 1)).toList.any (Window.refused control)
        || decide (2 ^ 30 < (readWindow b 0).size)) = true
      ↔ 2 ^ 30 < (readWindow b 0).size ∨ ∃ w, w < 7 ∧ windowBad control (readWindow b w) := by
  have others : (Vector.ofFn fun k : Fin 6 => readWindow b (k.val + 1)).toList.any (Window.refused control) = true
      ↔ ∃ k, k < 6 ∧ windowBad control (readWindow b (k + 1)) := by
    rw [any_toList_ofFn]
    simp only [Window.refused_iff, exists_prop]
  rw [Bool.or_eq_true, Bool.or_eq_true, others, Window.refused_iff, decide_eq_true_eq, or_comm]
  refine or_congr_right ⟨?_, ?_⟩
  · rintro (h | ⟨k, hk, h⟩)
    · exact ⟨0, by decide, h⟩
    · exact ⟨k + 1, Nat.succ_lt_succ hk, h⟩
  · rintro ⟨_ | k, hk, h⟩
    · exact .inl h
    · exact .inr ⟨k, Nat.lt_of_succ_lt_succ hk, h⟩

theorem readTransit_refused (h : 2 ^ 30 < (readWindow b 0).size ∨ ∃ w, w < 7 ∧ windowBad control (readWindow b w)) :
    readTransit control b = none := if_pos (transitRefused_iff.mpr h)

theorem readTransit_corrected (small : (readWindow b 0).size ≤ 2 ^ 30) (good : ∀ w, w < 7 → ¬windowBad control (readWindow b w)) :
    readTransit control b = some
      { image := readWindow b 0, protect := Vector.ofFn fun k : Fin 6 => readWindow b (k.val + 1)
        ownShare := clamp 1 15 (byteAt b 0x90), refreshLines := field b 0x92 2 } := by
  refine if_neg fun c => ?_
  rcases transitRefused_iff.mp c with large | ⟨w, hw, bad⟩
  · exact Nat.not_lt.mpr small large
  · exact good w hw bad

end

end Sys2Proof.Machine
end

section
/-! PROOFS. How the tables of a load are staged and take effect (R163). -/

namespace Sys2Proof.Machine

variable {s t u : State}

/-! ### One table staged -/

/-- The code of a table's kind (11.6). -/
def TableBody.code : TableBody → Nat
  | .transit _ => 1
  | .detect _ => 2
  | .column _ => 3
  | .cls _ => 4
  | .grade _ => 5
  | .product _ => 6
  | .link _ => 7
  | .shift _ => 8

/-- What a SHIFT table in effect makes of the shift timer (R154). -/
def Sac.withTable (x : ShiftTable) (c : Sac) : Sac :=
  if x.enabled then { c with params := x, running := true, prescaleCount := 0, tickCount := 0, stepCount := 0, expired := false }
  else { c with params := x, running := false, expired := false }

theorem State.stage_shift (x : ShiftTable) (s : State) : s.stage (.shift x) = { s with sac := s.sac.withTable x } := by
  unfold Sac.withTable
  rw [State.stage, State.takeShift]
  split <;> rfl

theorem Sac.withTable_facts (x : ShiftTable) (c : Sac) :
    (c.withTable x).params = x ∧ (c.withTable x).running = x.enabled ∧ (c.withTable x).counters = c.counters
      ∧ (c.withTable x).number = c.number
      ∧ (x.enabled = true → (c.withTable x).prescaleCount = 0 ∧ (c.withTable x).tickCount = 0 ∧ (c.withTable x).stepCount = 0) := by
  unfold Sac.withTable
  split
  · next on => exact ⟨rfl, on.symm, rfl, rfl, fun _ => ⟨rfl, rfl, rfl⟩⟩
  · next off => exact ⟨rfl, ((Bool.not_eq_true _).mp off).symm, rfl, rfl, fun on => absurd on off⟩

/-- `t` is `s` with tables staged (R163). -/
structure State.Stages (s t : State) : Prop where
  lcu : t.lcu = s.lcu
  fdu : t.fdu = { s.fdu with
    stagedDetect := t.fdu.stagedDetect, stagedColumns := t.fdu.stagedColumns, stagedClasses := t.fdu.stagedClasses }
  ppl : t.ppl = { s.ppl with stagedGrade := t.ppl.stagedGrade, stagedProduct := t.ppl.stagedProduct }
  cdu : t.cdu = { s.cdu with stagedLink := t.cdu.stagedLink }
  rou : t.rou = s.rou
  tru : t.tru = { s.tru with params := t.tru.params }
  csu : t.csu = { s.csu with refreshCount := t.csu.refreshCount }

theorem State.Stages.refl (s : State) : s.Stages s := ⟨rfl, rfl, rfl, rfl, rfl, rfl, rfl⟩

theorem State.Stages.trans (h : s.Stages t) (h' : t.Stages u) : s.Stages u where
  lcu := h'.lcu.trans h.lcu
  fdu := by rw [h'.fdu, h.fdu]
  ppl := by rw [h'.ppl, h.ppl]
  cdu := by rw [h'.cdu, h.cdu]
  rou := h'.rou.trans h.rou
  tru := by rw [h'.tru, h.tru]
  csu := by rw [h'.csu, h.csu]

theorem State.stage_stages (s : State) (y : TableBody) : s.Stages (s.stage y) := by
  cases y with
  | shift x => rw [State.stage_shift]; exact ⟨rfl, rfl, rfl, rfl, rfl, rfl, rfl⟩
  | _ => exact ⟨rfl, rfl, rfl, rfl, rfl, rfl, rfl⟩

theorem State.foldl_stage_stages (l : List TableBody) (s : State) : s.Stages (l.foldl State.stage s) :=
  foldl_related State.Stages.refl State.Stages.trans l s fun u y _ => u.stage_stages y

/-! ### All tables of a load staged -/

/-- Of the tables, those of one kind alone move a part of the state. -/
def MovedBy {α β : Type} (kind : α → TableBody) (π : State → β) : Prop :=
  ∀ (u : State) (y : TableBody), (∀ x, y ≠ kind x) → π (u.stage y) = π u

section
variable {α β : Type} {kind : α → TableBody} {π : State → β} {l : List TableBody}

theorem MovedBy.foldl_absent (h : MovedBy kind π) (hl : ∀ x, kind x ∉ l) (s : State) : π (l.foldl State.stage s) = π s := by
  induction l generalizing s with
  | nil => rfl
  | cons y l ih =>
    have other : ∀ x, y ≠ kind x := fun x same => hl x (same ▸ List.mem_cons_self)
    rw [List.foldl_cons, ih (fun x hx => hl x (List.mem_cons_of_mem _ hx)), h s y other]

/-- With one table of each kind, the one of the kind moves it. -/
theorem MovedBy.foldl_present (h : MovedBy kind π) {x : α} (hx : kind x ∈ l) (hc : ∀ x', (kind x').code = (kind x).code)
    (hn : (l.map TableBody.code).Nodup) (s : State) : ∃ u, π u = π s ∧ π (l.foldl State.stage s) = π (u.stage (kind x)) := by
  obtain ⟨before, behind, rfl⟩ := List.append_of_mem hx
  rw [List.map_append, List.map_cons, List.nodup_append] at hn
  obtain ⟨-, later, apart⟩ := hn
  have absentBehind : ∀ x', kind x' ∉ behind := fun x' hx' => (List.nodup_cons.mp later).1 (hc x' ▸ List.mem_map_of_mem hx')
  have absentBefore : ∀ x', kind x' ∉ before := fun x' hx' => apart _ (List.mem_map_of_mem hx') _ List.mem_cons_self (hc x')
  refine ⟨before.foldl State.stage s, h.foldl_absent absentBefore s, ?_⟩
  rw [List.foldl_append, List.foldl_cons, h.foldl_absent absentBehind]

end

theorem movedBy_transit : MovedBy .transit fun u => (u.tru.params, u.csu.refreshCount) := fun u y h => by
  cases y with
  | transit x => exact absurd rfl (h x)
  | shift x => rw [State.stage_shift]
  | _ => rfl

theorem movedBy_detect : MovedBy .detect fun u => u.fdu.stagedDetect := fun u y h => by
  cases y with
  | detect x => exact absurd rfl (h x)
  | shift x => rw [State.stage_shift]
  | _ => rfl

theorem movedBy_column : MovedBy .column fun u => u.fdu.stagedColumns := fun u y h => by
  cases y with
  | column x => exact absurd rfl (h x)
  | shift x => rw [State.stage_shift]
  | _ => rfl

theorem movedBy_cls : MovedBy .cls fun u => u.fdu.stagedClasses := fun u y h => by
  cases y with
  | cls x => exact absurd rfl (h x)
  | shift x => rw [State.stage_shift]
  | _ => rfl

theorem movedBy_grade : MovedBy .grade fun u => u.ppl.stagedGrade := fun u y h => by
  cases y with
  | grade x => exact absurd rfl (h x)
  | shift x => rw [State.stage_shift]
  | _ => rfl

theorem movedBy_product : MovedBy .product fun u => u.ppl.stagedProduct := fun u y h => by
  cases y with
  | product x => exact absurd rfl (h x)
  | shift x => rw [State.stage_shift]
  | _ => rfl

theorem movedBy_link : MovedBy .link fun u => u.cdu.stagedLink := fun u y h => by
  cases y with
  | link x => exact absurd rfl (h x)
  | shift x => rw [State.stage_shift]
  | _ => rfl

theorem movedBy_shift : MovedBy .shift fun u => u.sac := fun u y h => by
  cases y with
  | shift x => exact absurd rfl (h x)
  | _ => rfl

/-! ### Tables taking effect -/

/-- A table in force, and one staged: the staged one takes effect if its moment has come, and waits otherwise. -/
def TakesOver {α : Type} (now : Prop) (old new : α × Option α) : Prop :=
  (now → new = (old.2.getD old.1, none)) ∧ (¬now → new = old)

section
variable {α : Type} {now : Prop} {old new : α × Option α}

theorem TakesOver.of_staged (h : TakesOver now old new) {x : α} (hx : old.2 = some x) :
    (now → new.1 = x) ∧ (¬now → new.1 = old.1 ∧ new.2 = some x) := by
  obtain ⟨takes, waits⟩ := h
  refine ⟨fun c => ?_, fun c => ?_⟩
  · rw [takes c, hx]
    rfl
  · rw [waits c]
    exact ⟨rfl, hx⟩

theorem TakesOver.of_none (h : TakesOver now old new) (hx : old.2 = none) : new.1 = old.1 ∧ new.2 = none := by
  obtain ⟨takes, waits⟩ := h
  by_cases c : now
  · rw [takes c, hx]
    exact ⟨rfl, rfl⟩
  · rw [waits c]
    exact ⟨rfl, hx⟩

theorem TakesOver.staged_none_iff (h : TakesOver now old new) : new.2 = none ↔ now ∨ old.2 = none := by
  obtain ⟨takes, waits⟩ := h
  by_cases c : now
  · rw [takes c]
    exact iff_of_true rfl (.inl c)
  · rw [waits c]
    exact ⟨.inr, fun h => h.resolve_left c⟩

end

/-- `t` is `s` with the staged tables in effect whose moment has come (R163). -/
structure State.TakesStaged (s t : State) : Prop where
  rou : t.rou = s.rou
  tru : t.tru = s.tru
  csu : t.csu = s.csu
  sac : t.sac = s.sac
  detect : TakesOver (s.csu.inspection = .off) (s.fdu.detect, s.fdu.stagedDetect) (t.fdu.detect, t.fdu.stagedDetect)
  columns : TakesOver (s.csu.inspection = .off) (s.fdu.columns, s.fdu.stagedColumns) (t.fdu.columns, t.fdu.stagedColumns)
  classes : TakesOver (s.csu.inspection = .off) (s.fdu.classes, s.fdu.stagedClasses) (t.fdu.classes, t.fdu.stagedClasses)
  grade : TakesOver (s.ppl.piece = none) (s.ppl.grade, s.ppl.stagedGrade) (t.ppl.grade, t.ppl.stagedGrade)
  product : TakesOver (s.ppl.piece = none) (s.ppl.product, s.ppl.stagedProduct) (t.ppl.product, t.ppl.stagedProduct)
  link : TakesOver (s.cdu.engine.between = true) (s.cdu.link, s.cdu.stagedLink) (t.cdu.link, t.cdu.stagedLink)
  mask : s.cdu.engine.between = true → ∀ x, s.cdu.stagedLink = some x → t.cdu.mask = x.mask
  missTol : t.cdu.missTol = s.cdu.missTol

/-- The tables of a load take effect where their moment has come (R163). -/
def State.takeStaged (s : State) : State := (s.takeFduTablesIfOff.takePlannerTablesIfIdle).takeLinkIfBetween

theorem State.takeFduTablesIfOff_of_off (h : s.csu.inspection = .off) : s.takeFduTablesIfOff = s.takeFduTables := if_pos h

theorem State.takeFduTablesIfOff_of_not_off (h : s.csu.inspection ≠ .off) : s.takeFduTablesIfOff = s := if_neg h

theorem State.takePlannerTablesIfIdle_of_idle (h : s.ppl.piece = none) : s.takePlannerTablesIfIdle = s.takePlannerTables :=
  if_pos (by rw [h]; rfl)

theorem State.takePlannerTablesIfIdle_of_piece (h : s.ppl.piece ≠ none) : s.takePlannerTablesIfIdle = s :=
  if_neg fun c => h (Option.isNone_iff_eq_none.mp c)

/-- The deadline computed anew is the planner's alone. -/
theorem State.armDeadline_eq (s : State) : ∃ piece raised, s.armDeadline = { s with ppl.piece := piece, ppl.raisedAtOnce := raised } := by
  unfold State.armDeadline
  split
  · exact ⟨_, _, rfl⟩
  · exact ⟨s.ppl.piece, s.ppl.raisedAtOnce, rfl⟩

/-- The tables of the flaw detection unit take effect in OFF (R35, R57). -/
theorem State.takeFduTablesIfOff_facts (s : State) : ∃ d f, s.takeFduTablesIfOff = { s with lcu.divider := d, fdu := f }
    ∧ TakesOver (s.csu.inspection = .off) (s.fdu.detect, s.fdu.stagedDetect) (f.detect, f.stagedDetect)
    ∧ TakesOver (s.csu.inspection = .off) (s.fdu.columns, s.fdu.stagedColumns) (f.columns, f.stagedColumns)
    ∧ TakesOver (s.csu.inspection = .off) (s.fdu.classes, s.fdu.stagedClasses) (f.classes, f.stagedClasses) := by
  by_cases off : s.csu.inspection = .off
  · obtain ⟨d, takes, -⟩ := s.takeFduTables_all
    rw [State.takeFduTablesIfOff_of_off off, takes]
    exact ⟨d, _, rfl, ⟨fun _ => rfl, absurd off⟩, ⟨fun _ => rfl, absurd off⟩, ⟨fun _ => rfl, absurd off⟩⟩
  · rw [State.takeFduTablesIfOff_of_not_off off]
    exact ⟨s.lcu.divider, s.fdu, rfl, ⟨(absurd · off), fun _ => rfl⟩, ⟨(absurd · off), fun _ => rfl⟩, ⟨(absurd · off), fun _ => rfl⟩⟩

/-- The tables of the planner take effect in IDLE (R65, R99). -/
theorem State.takePlannerTablesIfIdle_facts (s : State) : ∃ p, s.takePlannerTablesIfIdle = { s with ppl := p }
    ∧ TakesOver (s.ppl.piece = none) (s.ppl.grade, s.ppl.stagedGrade) (p.grade, p.stagedGrade)
    ∧ TakesOver (s.ppl.piece = none) (s.ppl.product, s.ppl.stagedProduct) (p.product, p.stagedProduct) := by
  by_cases idle : s.ppl.piece = none
  · obtain ⟨lmin, lmax, takes⟩ := State.takePlannerTables_of_idle idle
    rw [State.takePlannerTablesIfIdle_of_idle idle, takes]
    exact ⟨_, rfl, ⟨fun _ => rfl, absurd idle⟩, ⟨fun _ => rfl, absurd idle⟩⟩
  · rw [State.takePlannerTablesIfIdle_of_piece idle]
    exact ⟨s.ppl, rfl, ⟨(absurd · idle), fun _ => rfl⟩, ⟨(absurd · idle), fun _ => rfl⟩⟩

/-- A LINK table takes effect between transfers (R122). -/
theorem State.takeLinkIfBetween_facts (hm : s.cdu.newMask = none) : ∃ c piece raised,
    s.takeLinkIfBetween = { s with cdu := c, ppl.piece := piece, ppl.raisedAtOnce := raised }
    ∧ TakesOver (s.cdu.engine.between = true) (s.cdu.link, s.cdu.stagedLink) (c.link, c.stagedLink)
    ∧ (s.cdu.engine.between = true → ∀ x, s.cdu.stagedLink = some x → c.mask = x.mask) ∧ c.missTol = s.cdu.missTol := by
  by_cases between : s.cdu.engine.between = true
  · have takes : s.takeLinkIfBetween = s.takeLink.reviewEngine := if_pos between
    obtain ⟨engine, loopPos, gapRunning, reviews⟩ := s.takeLink.reviewEngine_eq
    rw [takes, reviews]
    cases hl : s.cdu.stagedLink with
    | none =>
      rw [State.takeLink_of_none hl hm]
      exact ⟨_, s.ppl.piece, s.ppl.raisedAtOnce, rfl, ⟨fun _ => by rw [hl]; rfl, absurd between⟩, fun _ _ h => absurd h nofun, rfl⟩
    | some x =>
      obtain ⟨piece, raised, armed⟩ := ({ s with cdu.link := x, cdu.stagedLink := none }.setMask x.mask).armDeadline_eq
      have unmasked : ({ s with cdu.link := x, cdu.stagedLink := none }.setMask x.mask).armDeadline.cdu.newMask = none := by
        rw [armed]
        exact hm
      have linked : s.takeLink = ({ s with cdu.link := x, cdu.stagedLink := none }.setMask x.mask).armDeadline := by
        unfold State.takeLink
        rw [hl]
        dsimp only
        rw [unmasked]
      rw [linked, armed]
      exact ⟨_, piece, raised, rfl, ⟨fun _ => rfl, absurd between⟩, fun _ y h => (congrArg LinkTable.mask (Option.some.inj h) :), rfl⟩
  · have waits : s.takeLinkIfBetween = s := if_neg between
    rw [waits]
    exact ⟨s.cdu, s.ppl.piece, s.ppl.raisedAtOnce, rfl, ⟨(absurd · between), fun _ => rfl⟩, (absurd · between), rfl⟩

theorem State.takeStaged_facts (hm : s.cdu.newMask = none) : s.TakesStaged s.takeStaged := by
  obtain ⟨d, f, fduTaken, detect, columns, classes⟩ := s.takeFduTablesIfOff_facts
  obtain ⟨p, plannerTaken, grade, product⟩ := s.takeFduTablesIfOff.takePlannerTablesIfIdle_facts
  rw [fduTaken] at plannerTaken grade product
  obtain ⟨c, piece, raised, linkTaken, link, mask, missTol⟩ := State.takeLinkIfBetween_facts
    (s := { { s with lcu.divider := d, fdu := f } with ppl := p }) hm
  rw [State.takeStaged, fduTaken, plannerTaken, linkTaken]
  exact ⟨rfl, rfl, rfl, rfl, detect, columns, classes, grade, product, link, mask, missTol⟩

theorem nothingStaged_iff : s.nothingStaged = true ↔ s.fdu.stagedDetect = none ∧ s.fdu.stagedColumns = none ∧ s.fdu.stagedClasses = none
    ∧ s.ppl.stagedGrade = none ∧ s.ppl.stagedProduct = none ∧ s.cdu.stagedLink = none := by
  simp only [State.nothingStaged, Bool.and_eq_true, Option.isNone_iff_eq_none, and_assoc]

end Sys2Proof.Machine
end

section
/-! PROOFS. The return of a table's last read (R163, R169), and the settlement of O57. -/

namespace Sys2Proof.Machine

variable {s t u v w b : State} {n : Fin 8}

/-! ### The running load -/

theorem State.setPhase_running {p q : Phase} (h : s.csu.running = [{ slot := n, phase := p }]) :
    (s.setPhase n q).csu.running = [{ slot := n, phase := q }] := by
  simp [State.setPhase, h]

theorem State.stagedLoad_of_idle (h : s.csu.running = []) : s.stagedLoad = none := by
  rw [State.stagedLoad, h]
  rfl

theorem State.stagedLoad_of_staged {k : Nat} (h : s.csu.running = [{ slot := n, phase := .tablesStaged k }]) :
    s.stagedLoad = some (n, k) := by
  rw [State.stagedLoad, h]
  rfl

theorem State.nothingStaged_congr (hfdu : t.fdu = s.fdu) (hppl : t.ppl = s.ppl) (hcdu : t.cdu = s.cdu) :
    t.nothingStaged = s.nothingStaged := by
  rw [State.nothingStaged, State.nothingStaged, hfdu, hppl, hcdu]

/-- With nothing left staged the load completes at the close of the event (R163). -/
theorem State.finish_of_load_done {k : Nat} (h : s.csu.running = [{ slot := n, phase := .tablesStaged k }]) (hs : s.nothingStaged = true) :
    s.finish = (s.complete n .ok (BitVec.ofNat 32 k)).finish := by
  have completes : s.completeTables = s.complete n .ok (BitVec.ofNat 32 k) := by
    rw [State.completeTables, State.stagedLoad_of_staged h]
    exact if_pos hs
  have idle : (s.complete n .ok (BitVec.ofNat 32 k)).csu.running = [] := by
    rw [State.complete_running, h]
    simp
  have rest : (s.complete n .ok (BitVec.ofNat 32 k)).completeTables = s.complete n .ok (BitVec.ofNat 32 k) := by
    rw [State.completeTables, State.stagedLoad_of_idle idle]
  rw [State.finish, State.finish, State.completeLoads, State.completeLoads, completes, rest]

/-- With a table left staged the load waits (R163). -/
theorem State.AtRest.load_waits {k : Nat} (hb : b.AtRest) (h : s.csu.running = [{ slot := n, phase := .tablesStaged k }])
    (hs : s.nothingStaged = false) (hrou : s.rou = b.rou) (ht : s.tru.transit = b.tru.transit) : s.AtRest where
  loads := by
    have reference : s.runningWith isReferenceStaged = none := by
      rw [State.runningWith, h]
      rfl
    rw [State.noLoadDone, hs, reference, Option.isNone_none, Bool.or_true, Bool.not_false, Bool.or_true]
    rfl
  writes ch := by
    have same : s.channel ch = b.channel ch := congrArg (fun r : Vector Channel 3 => r[ch]) hrou
    rw [← hb.writes ch, State.canWrite, State.canWrite, same]
  candidate := (State.classified_congr ht).trans hb.candidate

theorem State.EndsAs.congr {st : Status} {x : Word} (h : v.EndsAs t n st x) (slots : v.csu.slots = s.csu.slots)
    (fifo : v.csu.fifo = s.csu.fifo) (controlBase : v.tru.controlBase = s.tru.controlBase) : s.EndsAs t n st x := by
  have slotOf : ∀ k, v.slot k = s.slot k := fun k => congrArg (fun a : Vector Slot 8 => a[k]) slots
  have request : v.resultRequest n st x = s.resultRequest n st x := by
    simp only [State.resultRequest, slotOf, controlBase]
  exact ⟨h.fifo.trans fifo, h.slot.trans (by rw [slotOf]), fun k hk => (h.others k hk).trans (slotOf k), h.running, h.done,
    request ▸ h.result⟩

/-! ### Reads of a table -/

/-- A structure is read as reads of 16 beats, the last taking the rest (R169). -/
theorem State.placeReads_places (p : OwnPurpose) (addr beats : Nat) (s : State) : ∃ l,
    s.placeReads p addr beats = { s with tru.placing := s.tru.placing ++ l }
      ∧ ∀ j, 16 * j < beats →
        { purpose := p, kind := .read, addr := addr + 512 * j, beats := min 16 (beats - 16 * j), data := [] } ∈ l := by
  refine ⟨_, foldl_place (fun i => commandRead p (addr + readBeats * beatBytes * i) (min readBeats (beats - readBeats * i))) _ s,
    fun j hj => List.mem_map.mpr ⟨j, List.mem_range.mpr ?_, rfl⟩⟩
  rw [readBeats]
  omega

/-- The last read of a table: it is judged, and the next one is read, or the load ends (R163, R169). -/
theorem State.tableReadReturn_of_last {i : Nat} {e : DirEntry} {rest : List DirEntry} {bytes data : List Byte} {good : List TableBody}
    {refused : Option Nat} (h : s.csu.running = [{ slot := n, phase := .tables i (e :: rest) bytes good refused }])
    (hl : e.kind.length ≤ bytes.length + data.length) :
    s.tableReadReturn data = s.readNextTable n (i + 1) rest (good ++ (readTable s.tru.controlBase e.kind (bytes ++ data)).toList)
      (if readTable s.tru.controlBase e.kind (bytes ++ data) = none ∧ refused = none then some i else refused) := by
  have returned : s.tableReadReturn data = s.tableReturned n i (e :: rest) (bytes ++ data) good refused := by
    rw [State.tableReadReturn, h]
    rfl
  have whole : ¬(bytes ++ data).length < e.kind.length := by
    rw [List.length_append]
    exact Nat.not_lt.mpr hl
  rw [returned, State.tableReturned, if_neg whole]
  cases readTable s.tru.controlBase e.kind (bytes ++ data) with
  | none =>
    dsimp only
    rw [Option.toList_none, List.append_nil, firstRefused]
    cases refused with
    | none => rfl
    | some k => rfl
  | some x =>
    have judged : ¬(some x = none ∧ refused = none) := fun c => absurd c.1 nofun
    rw [if_neg judged]
    rfl

/-! ### After the last read of a table -/

/-- Another table follows: it is read (R163, R169). -/
theorem State.next_table {i : Nat} {e : DirEntry} {rest : List DirEntry} {good : List TableBody} {refused : Option Nat} {p : Phase}
    (hrun : b.csu.running = [{ slot := n, phase := p }]) : ∃ t,
    (b.readNextTable n i (e :: rest) good refused).finish = t
      ∧ t.csu = { b.csu with running := [{ slot := n, phase := .tables i (e :: rest) [] good refused }] }
      ∧ t.fdu = b.fdu ∧ t.ppl = b.ppl ∧ t.cdu = b.cdu ∧ t.sac = b.sac ∧ t.tru.params = b.tru.params ∧ t.tru.flight = b.tru.flight
      ∧ ∀ j, 16 * j < e.kind.beats →
        { purpose := .tableRead, kind := .read, addr := e.addr + 512 * j, beats := min 16 (e.kind.beats - 16 * j), data := [] }
          ∈ t.tru.own ++ t.tru.waiting := by
  obtain ⟨l, places, reads⟩ := State.placeReads_places .tableRead e.addr e.kind.beats (b.setPhase n (.tables i (e :: rest) [] good refused))
  have running := State.setPhase_running (q := .tables i (e :: rest) [] good refused) hrun
  obtain ⟨v, hv⟩ : ∃ v, v = b.readNextTable n i (e :: rest) good refused := ⟨_, rfl⟩
  have next : v = { b.setPhase n (.tables i (e :: rest) [] good refused) with
      tru.placing := b.tru.placing ++ l } := hv.trans places
  have csu : v.csu = { b.csu with running := [{ slot := n, phase := .tables i (e :: rest) [] good refused }] } := by
    rw [next, ← running]
    rfl
  have noLoad : ∀ r ∈ v.csu.running, r.phase.loadWaits = false := by
    rw [csu]
    exact fun r hr => List.mem_singleton.mp hr ▸ rfl
  refine ⟨_, rfl, ?_, ?_, ?_, ?_, ?_, ?_, ?_, fun j hj => ?_⟩
  · rw [← hv, State.finish_csu noLoad, csu]
  · rw [← hv, State.finish_fdu, next]; rfl
  · rw [← hv, State.finish_ppl, next]; rfl
  · rw [← hv, State.finish_cdu, next]; rfl
  · rw [← hv, State.finish_sac, next]; rfl
  · rw [← hv, State.finish_tru_params, next]; rfl
  · rw [← hv, State.finish_tru_flight, next]; rfl
  · rw [← hv]
    refine State.finish_requests ?_
    rw [next]
    exact List.mem_append_right _ (reads j hj)

/-- No table follows, and one has been refused: the load ends, and nothing is staged (R163). -/
theorem State.load_refused {i j : Nat} {good : List TableBody} {p : Phase} (hrun : b.csu.running = [{ slot := n, phase := p }]) : ∃ t,
    (b.readNextTable n i [] good (some j)).finish = t ∧ b.EndsAs t n .tableInvalid (BitVec.ofNat 32 j)
      ∧ t.fdu = b.fdu ∧ t.ppl = b.ppl ∧ t.cdu = b.cdu ∧ t.sac = b.sac ∧ t.tru.params = b.tru.params ∧ t.tru.flight = b.tru.flight
      ∧ t.csu.inspection = b.csu.inspection := by
  refine ⟨_, rfl, State.endsAs hrun (.refl b), ?_, ?_, ?_, ?_, ?_, ?_, ?_⟩ <;> simp [State.readNextTable]

/-- Every table is at once in effect, or stays staged, as its kind gives (R163). -/
def State.atOnce (s : State) : TableBody → Prop
  | .transit _ | .shift _ => True
  | .detect _ | .column _ | .cls _ => s.csu.inspection = .off
  | .grade _ | .product _ => s.ppl.piece = none
  | .link _ => s.cdu.engine.between = true

section
variable {α : Type} {now : Prop} {l : List TableBody} {kind : α → TableBody} {π : State → Option α} {old new : α × Option α}

/-- What a load makes of a table of one kind, in force and staged: none was staged before it. -/
structure LoadedAs (now : Prop) (l : List TableBody) (kind : α → TableBody) (force : α) (new : α × Option α) : Prop where
  loaded : ∀ x, kind x ∈ l → (now → new.1 = x) ∧ (¬now → new.1 = force ∧ new.2 = some x)
  kept : (∀ x, kind x ∉ l) → new.1 = force ∧ new.2 = none
  taken : now → new.2 = none

theorem LoadedAs.of_takesOver {force : α} (h : TakesOver now (force, π (l.foldl State.stage s)) new) (moved : MovedBy kind π)
    (stages : ∀ (u : State) x, π (u.stage (kind x)) = some x) (hc : ∀ x x', (kind x').code = (kind x).code) (hn : (l.map TableBody.code).Nodup)
    (hs : π s = none) : LoadedAs now l kind force new where
  loaded x hx := by
    obtain ⟨u, -, staged⟩ := moved.foldl_present hx (hc x) hn s
    exact h.of_staged (staged.trans (stages u x))
  kept hl := h.of_none ((moved.foldl_absent hl s).trans hs)
  taken c := h.staged_none_iff.mpr (.inl c)

/-- Nothing of the kind stays staged exactly if its moment has come or none was loaded. -/
theorem LoadedAs.staged_none_iff {force : α} (h : LoadedAs now l kind force new) :
    new.2 = none ↔ ∀ x, kind x ∈ l → now := by
  constructor
  · intro none x hx
    refine Classical.byContradiction fun c => ?_
    have staged := ((h.loaded x hx).2 c).2
    rw [none] at staged
    exact absurd staged nofun
  · intro all
    by_cases c : ∃ x, kind x ∈ l
    · obtain ⟨x, hx⟩ := c
      exact h.taken (all x hx)
    · exact (h.kept fun x hx => c ⟨x, hx⟩).2

end


/-- `t` is what a load of the tables `l` on `s` leaves (R163). -/
structure State.Loads (l : List TableBody) (s t : State) : Prop where
  transit : ∀ x, .transit x ∈ l → t.tru.params = x ∧ t.csu.refreshCount = 0
  noTransit : (∀ x, .transit x ∉ l) → t.tru.params = s.tru.params ∧ t.csu.refreshCount = s.csu.refreshCount
  shift : ∀ x, .shift x ∈ l → t.sac = s.sac.withTable x
  noShift : (∀ x, .shift x ∉ l) → t.sac = s.sac
  detect : LoadedAs (s.csu.inspection = .off) l .detect s.fdu.detect (t.fdu.detect, t.fdu.stagedDetect)
  column : LoadedAs (s.csu.inspection = .off) l .column s.fdu.columns (t.fdu.columns, t.fdu.stagedColumns)
  cls : LoadedAs (s.csu.inspection = .off) l .cls s.fdu.classes (t.fdu.classes, t.fdu.stagedClasses)
  grade : LoadedAs (s.ppl.piece = none) l .grade s.ppl.grade (t.ppl.grade, t.ppl.stagedGrade)
  product : LoadedAs (s.ppl.piece = none) l .product s.ppl.product (t.ppl.product, t.ppl.stagedProduct)
  link : LoadedAs (s.cdu.engine.between = true) l .link s.cdu.link (t.cdu.link, t.cdu.stagedLink)
  mask : ∀ x, .link x ∈ l → s.cdu.engine.between = true → t.cdu.mask = x.mask
  missTol : t.cdu.missTol = s.cdu.missTol

/-- Everything loaded is in effect exactly if the moment of each table has come. -/
theorem State.Loads.nothingStaged_iff {l : List TableBody} (h : s.Loads l t) : t.nothingStaged = true ↔ ∀ y ∈ l, s.atOnce y := by
  rw [Machine.nothingStaged_iff, h.detect.staged_none_iff, h.column.staged_none_iff, h.cls.staged_none_iff, h.grade.staged_none_iff,
    h.product.staged_none_iff, h.link.staged_none_iff]
  constructor
  · rintro ⟨detect, column, cls, grade, product, link⟩ y hy
    cases y with
    | transit x => exact trivial
    | detect x => exact detect x hy
    | column x => exact column x hy
    | cls x => exact cls x hy
    | grade x => exact grade x hy
    | product x => exact product x hy
    | link x => exact link x hy
    | shift x => exact trivial
  · intro all
    exact ⟨fun x hx => all _ hx, fun x hx => all _ hx, fun x hx => all _ hx, fun x hx => all _ hx, fun x hx => all _ hx,
      fun x hx => all _ hx⟩

theorem State.Loads.finish {l : List TableBody} {p : Phase} (h : s.Loads l t) : s.Loads l (t.setPhase n p).finish where
  transit := by rw [State.finish_tru_params, State.finish_csu_refreshCount]; exact h.transit
  noTransit := by rw [State.finish_tru_params, State.finish_csu_refreshCount]; exact h.noTransit
  shift := by rw [State.finish_sac]; exact h.shift
  noShift := by rw [State.finish_sac]; exact h.noShift
  detect := by rw [State.finish_fdu]; exact h.detect
  column := by rw [State.finish_fdu]; exact h.column
  cls := by rw [State.finish_fdu]; exact h.cls
  grade := by rw [State.finish_ppl]; exact h.grade
  product := by rw [State.finish_ppl]; exact h.product
  link := by rw [State.finish_cdu]; exact h.link
  mask := by rw [State.finish_cdu]; exact h.mask
  missTol := by rw [State.finish_cdu]; exact h.missTol

/-- The tables of a load, one of each kind at most, are staged and take effect (R163). -/
theorem State.loads_takeStaged {l : List TableBody} (hs : s.nothingStaged = true) (hm : s.cdu.newMask = none)
    (hn : (l.map TableBody.code).Nodup) : s.Loads l (l.foldl State.stage s).takeStaged := by
  obtain ⟨detect, columns, classes, grade, product, link⟩ := Machine.nothingStaged_iff.mp hs
  obtain ⟨u, hu⟩ : ∃ u, u = l.foldl State.stage s := ⟨_, rfl⟩
  have stages : s.Stages u := hu ▸ State.foldl_stage_stages l s
  have takes := State.takeStaged_facts (s := u) (by rw [stages.cdu]; exact hm)
  have off : u.csu.inspection = s.csu.inspection := (congrArg Csu.inspection stages.csu :)
  have piece : u.ppl.piece = s.ppl.piece := (congrArg Ppl.piece stages.ppl :)
  have engine : u.cdu.engine = s.cdu.engine := (congrArg Cdu.engine stages.cdu :)
  have detectNow := takes.detect
  have columnsNow := takes.columns
  have classesNow := takes.classes
  have gradeNow := takes.grade
  have productNow := takes.product
  have linkNow := takes.link
  rw [off, (congrArg Fdu.detect stages.fdu :)] at detectNow
  rw [off, (congrArg Fdu.columns stages.fdu :)] at columnsNow
  rw [off, (congrArg Fdu.classes stages.fdu :)] at classesNow
  rw [piece, (congrArg Ppl.grade stages.ppl :)] at gradeNow
  rw [piece, (congrArg Ppl.product stages.ppl :)] at productNow
  rw [engine, (congrArg Cdu.link stages.cdu :)] at linkNow
  subst hu
  exact {
    transit := fun x hx => by
      obtain ⟨v, -, staged⟩ := movedBy_transit.foldl_present hx (fun _ => rfl) hn s
      rw [takes.tru, takes.csu]
      exact Prod.ext_iff.mp staged
    noTransit := fun hx => by
      rw [takes.tru, takes.csu]
      exact Prod.ext_iff.mp (movedBy_transit.foldl_absent hx s)
    shift := fun x hx => by
      obtain ⟨v, same, staged⟩ := movedBy_shift.foldl_present hx (fun _ => rfl) hn s
      rw [takes.sac, staged, State.stage_shift, ← same]
    noShift := fun hx => by rw [takes.sac, movedBy_shift.foldl_absent hx s]
    detect := .of_takesOver detectNow movedBy_detect (fun _ _ => rfl) (fun _ _ => rfl) hn detect
    column := .of_takesOver columnsNow movedBy_column (fun _ _ => rfl) (fun _ _ => rfl) hn columns
    cls := .of_takesOver classesNow movedBy_cls (fun _ _ => rfl) (fun _ _ => rfl) hn classes
    grade := .of_takesOver gradeNow movedBy_grade (fun _ _ => rfl) (fun _ _ => rfl) hn grade
    product := .of_takesOver productNow movedBy_product (fun _ _ => rfl) (fun _ _ => rfl) hn product
    link := .of_takesOver linkNow movedBy_link (fun _ _ => rfl) (fun _ _ => rfl) hn link
    mask := fun x hx between => by
      obtain ⟨v, -, staged⟩ := movedBy_link.foldl_present hx (fun _ => rfl) hn s
      exact takes.mask (by rw [engine]; exact between) x staged
    missTol := by rw [takes.missTol, stages.cdu] }

/-- A load whose tables are all good ends, or waits, at the return of its last read (R163). -/
theorem State.AtRest.load_staged {l : List TableBody} {p : Phase} (hb : b.AtRest) (hrun : b.csu.running = [{ slot := n, phase := p }])
    (hs : b.nothingStaged = true) (hm : b.cdu.newMask = none) : ∃ t,
    (b.stageAll n l).finish = t ∧ t.tru.flight = b.tru.flight ∧ t.csu.inspection = b.csu.inspection
      ∧ ((l.map TableBody.code).Nodup → b.Loads l t
      ∧ ((∀ y ∈ l, b.atOnce y) → b.EndsAs t n .ok (BitVec.ofNat 32 l.length))
      ∧ ((∃ y ∈ l, ¬b.atOnce y) →
        t.csu.running = [{ slot := n, phase := .tablesStaged l.length }] ∧ t.slot n = b.slot n ∧ t.csu.causes = b.csu.causes)) := by
  obtain ⟨w, hw⟩ : ∃ w, w = (l.foldl State.stage b).takeStaged := ⟨_, rfl⟩
  have spares : w.csu = { b.csu with refreshCount := w.csu.refreshCount } ∧ w.tru = { b.tru with params := w.tru.params } ∧ w.rou = b.rou := by
    have stages := State.foldl_stage_stages l b
    have takes := State.takeStaged_facts (s := l.foldl State.stage b) (by rw [stages.cdu]; exact hm)
    rw [hw, takes.csu, takes.tru, takes.rou]
    exact ⟨stages.csu, stages.tru, stages.rou⟩
  obtain ⟨csu, tru, rou⟩ := spares
  obtain ⟨v, hv⟩ : ∃ v, v = w.setPhase n (.tablesStaged l.length) := ⟨_, rfl⟩
  have staged : b.stageAll n l = v := by rw [hv, hw]; rfl
  have running : v.csu.running = [{ slot := n, phase := .tablesStaged l.length }] :=
    hv ▸ State.setPhase_running (p := p) (by rw [csu]; exact hrun)
  refine ⟨v.finish, by rw [staged], ?_, ?_, fun hn => ?_⟩
  · rw [State.finish_tru_flight, hv]
    exact (congrArg Tru.flight tru :)
  · rw [State.finish_csu_inspection, hv]
    exact (congrArg Csu.inspection csu :)
  have loads : b.Loads l w := hw ▸ State.loads_takeStaged hs hm hn
  have nothing : v.nothingStaged = true ↔ ∀ y ∈ l, b.atOnce y := by
    rw [hv]
    exact loads.nothingStaged_iff
  refine ⟨hv ▸ loads.finish, fun all => ?_, fun ⟨y, hy, later⟩ => ?_⟩
  · rw [State.finish_of_load_done running (nothing.mpr all)]
    refine (State.endsAs running (.refl v)).congr ?_ ?_ ?_ <;> rw [hv]
    · exact (congrArg Csu.slots csu :)
    · exact (congrArg Csu.fifo csu :)
    · exact (congrArg Tru.controlBase tru :)
  · have some : v.nothingStaged = false := (Bool.not_eq_true _).mp fun c => later (nothing.mp c y hy)
    have rest : v.AtRest := hb.load_waits running some (by rw [hv]; exact rou) (by rw [hv]; exact (congrArg Tru.transit tru :))
    rw [rest.finish, State.placeAll_csu, State.placeAll_slot]
    refine ⟨running, ?_, ?_⟩ <;> rw [hv]
    · exact (congrArg (fun c : Csu => c.slots[n]) csu :)
    · exact (congrArg Csu.causes csu :)

theorem getElem?_map_range {α : Type} {f : Nat → α} {n r : Nat} {y : α} (h : ((List.range n).map f)[r]? = some y) : r < n ∧ f r = y := by
  rw [List.getElem?_map, Option.map_eq_some_iff] at h
  obtain ⟨k, hk, rfl⟩ := h
  rw [List.getElem?_eq_some_iff] at hk
  obtain ⟨lt, rfl⟩ := hk
  rw [List.length_range] at lt
  exact ⟨lt, by rw [List.getElem_range]⟩

/-- Settles O57. -/
theorem oneTableIsLoaded : Obligations.OneTableIsLoaded := by
  refine ⟨fun s n r flight data bytes i e rest good refused hq hf hp hk hl hrun whole nothing unmasked => ?_, fun control b => ?_⟩
  · intro table atOnce code
    obtain ⟨settled, closed⟩ := State.quiet_iff.mp hq
    obtain ⟨b, hb⟩ : ∃ b, b = s.answeredTo flight := ⟨_, rfl⟩
    have atRest : b.AtRest := hb ▸ State.atRest_answeredTo flight closed
    have running : b.csu.running = [{ slot := n, phase := .tables i (e :: rest) bytes good refused }] := by rw [hb]; exact hrun
    have runs : exec (.ownReadReturn data) s = .next (b.readNextTable n (i + 1) rest (good ++ table.toList)
        (if table = none ∧ refused = none then some i else refused)).finish := by
      rw [exec_ownReadReturn settled hf hk hl, hp, ← hb, State.ownReadReturned, State.tableReadReturn_of_last running whole, hb]
      rfl
    rw [runs]
    cases rest with
    | cons e' more =>
      obtain ⟨t, next, csu, fdu, ppl, cdu, sac, params, flies, reads⟩ := State.next_table (i := i + 1) (e := e') (rest := more)
        (good := good ++ table.toList) (refused := if table = none ∧ refused = none then some i else refused) running
      have kept : t.nothingStaged = true := (State.nothingStaged_congr fdu ppl cdu).trans (by rw [hb]; exact nothing)
      refine ⟨t, congrArg _ next, flies.trans (by rw [hb]; rfl), ?_, fun e'' more' same => ?_, fun h => absurd h nofun,
        fun _ => ⟨kept, by rw [fdu, hb]; rfl, by rw [ppl, hb]; rfl, by rw [cdu, hb]; rfl, by rw [sac, hb]; rfl, by rw [params, hb]; rfl⟩,
        fun h => absurd h nofun⟩
      · rw [csu, hb]
        rfl
      · obtain ⟨rfl, rfl⟩ := List.cons.inj same
        refine ⟨by rw [csu], reads, ?_, ?_⟩
        · rw [State.slot, csu, hb]
          rfl
        · rw [csu, hb]
          rfl
    | nil =>
      by_cases bad : table = none ∨ refused ≠ none
      · have first : (if table = none ∧ refused = none then some i else refused) = some (refused.getD i) := by
          cases hr : refused with
          | none => exact if_pos ⟨bad.resolve_right fun c => c hr, rfl⟩
          | some j => exact if_neg fun c => absurd c.2 nofun
        obtain ⟨t, next, endsAs, fdu, ppl, cdu, sac, params, flies, inspection⟩ := State.load_refused (i := i + 1) (j := refused.getD i)
          (good := good ++ table.toList) running
        have kept : t.nothingStaged = true := (State.nothingStaged_congr fdu ppl cdu).trans (by rw [hb]; exact nothing)
        rw [first]
        refine ⟨t, congrArg _ next, flies.trans (by rw [hb]; rfl), inspection.trans (by rw [hb]; rfl), fun _ _ h => absurd h nofun,
          fun _ _ => State.EndsAs.of_answeredTo (hb ▸ endsAs),
          fun _ => ⟨kept, by rw [fdu, hb]; rfl, by rw [ppl, hb]; rfl, by rw [cdu, hb]; rfl, by rw [sac, hb]; rfl, by rw [params, hb]; rfl⟩,
          fun _ none x some => ?_⟩
        exact absurd none (bad.resolve_left fun c => absurd (c.symm.trans some) nofun)
      · obtain ⟨judged, none⟩ := not_or.mp bad
        obtain ⟨x, hx⟩ := Option.ne_none_iff_exists'.mp judged
        have none := Decidable.not_not.mp none
        have goes : (if table = Option.none ∧ refused = Option.none then some i else refused) = Option.none := by
          rw [if_neg fun c => judged c.1, none]
        have all : good ++ table.toList = good ++ [x] := by rw [hx]; rfl
        obtain ⟨t, next, flies, inspection, loaded⟩ := atRest.load_staged (l := good ++ [x]) running (by rw [hb]; exact nothing)
          (by rw [hb]; exact unmasked)
        rw [goes, all]
        refine ⟨t, congrArg _ next, flies.trans (by rw [hb]; rfl), inspection.trans (by rw [hb]; rfl), fun _ _ h => absurd h nofun,
          fun _ h => absurd h bad, fun h => absurd h (fun c => c.elim (absurd rfl ·) bad), fun _ _ y hy hn => ?_⟩
        obtain rfl : x = y := Option.some.inj (hx.symm.trans hy)
        obtain ⟨loads, ends, waits⟩ := loaded hn
        intro all
        subst hb
        have now : ∀ y, atOnce y ↔ (s.answeredTo flight).atOnce y := fun y => by cases y <;> exact Iff.rfl
        refine ⟨fun h => .of_answeredTo (ends fun y hy => (now y).mp (h y hy)),
          fun ⟨y, hy, later⟩ => waits ⟨y, hy, fun c => later ((now y).mpr c)⟩,
          loads.transit, loads.noTransit, fun x hx => ?_, loads.noShift, loads.detect.loaded, loads.detect.kept, loads.column.loaded,
          loads.column.kept, loads.cls.loaded, loads.cls.kept, loads.grade.loaded, loads.grade.kept, loads.product.loaded,
          loads.product.kept, fun x hx => ⟨fun between => ?_, fun busy => ?_⟩, loads.link.kept⟩
        · rw [loads.shift x hx]
          exact Sac.withTable_facts x s.sac
        · exact ⟨(loads.link.loaded x hx).1 between, loads.mask x hx between, loads.missTol⟩
        · exact (loads.link.loaded x hx).2 ((Bool.not_eq_true _).mpr busy)
  intro u f read headed one atMost atLeast within grade
  have refused (k : TableKind) (h : ¬headed k.code k.length) : read k = none := readTable_refused h
  have judged (k : TableKind) (h : headed k.code k.length) : read k = k.judge control b := readTable_headed h
  have hone : ∀ v, max 1 v = one v := max_one_eq
  have hatMost : ∀ hi v, min hi v = atMost hi v := min_eq_ite
  have hatLeast : ∀ lo v, max lo v = atLeast lo v := max_eq_ite
  have hwithin : ∀ lo hi v, lo ≤ hi → clamp lo hi v = within lo hi v := fun _ _ v le => clamp_eq_ite le v
  have hgrade : ∀ n, gradeOf n = grade n := gradeOf_eq
  refine ⟨refused .transit, refused .detect, refused .column, refused .cls, refused .grade, refused .product, refused .link, refused .shift,
    fun h => ⟨fun bad => ?_, fun small good => ?_⟩, fun h => ⟨fun bad => ?_, fun good => ?_⟩, fun h len => ?_,
    fun h => ⟨fun bad => ?_, fun good => ?_⟩,
    fun h => ?_, fun h => ⟨fun bad => ?_, fun good => ?_⟩, fun h => ?_, fun h => ?_⟩
  · rw [judged .transit h, TableKind.judge, readTransit_refused bad]
    rfl
  · rw [judged .transit h, TableKind.judge, readTransit_corrected small good]
    exact ⟨_, rfl, rfl, fun k => Vector.getElem_ofFn _, hwithin _ _ _ (by decide), rfl⟩
  · rw [judged .detect h, TableKind.judge, readDetect_refused bad]
    rfl
  · rw [judged .detect h, TableKind.judge, readDetect_corrected good]
    simp only [hone, hatMost, hwithin, Nat.reduceLeDiff]
    rfl
  · refine ⟨_, judged .column h, fun c hc => ?_⟩
    rw [gainOf_readColumn len hc, hatMost]
  · rw [judged .cls h, TableKind.judge, readClass_refused bad]
    rfl
  · rw [judged .cls h, TableKind.judge, readClass_corrected good]
    refine ⟨_, rfl, ?_, fun r y hy => ?_, fun k => ?_⟩
    · rw [List.length_map, List.length_range]
    · obtain ⟨hr, rfl⟩ := getElem?_map_range hy
      exact ⟨readRule_of_not_bad good hr, rfl, rfl, rfl, rfl, rfl, rfl, rfl⟩
    · have entry : (Vector.ofFn fun k : Fin 16 => readClassEntry b k.val)[k] = readClassEntry b k.val := Vector.getElem_ofFn _
      dsimp only
      rw [entry]
      exact ⟨rfl, hatLeast _ _, hatLeast _ _, fun i => Vector.getElem_ofFn _⟩
  · rw [judged .grade h, TableKind.judge, readGrade]
    simp only [hone, hatMost, hatLeast, hgrade]
    rfl
  · have none : ¬(Vector.ofFn fun p : Fin 8 => readProductSlot b p.val).toList.any Product.enabled = true := fun c => by
      obtain ⟨p, hp, enabled⟩ := anyEnabled_iff.mp c
      exact absurd enabled (by rw [bad p hp]; decide)
    rw [judged .product h, TableKind.judge, readProduct_eq, if_neg none]
    rfl
  · rw [judged .product h, TableKind.judge, readProduct_eq, if_pos (anyEnabled_iff.mpr good)]
    refine ⟨_, rfl, hone _, rfl, rfl, fun p => ?_⟩
    refine (Vector.getElem_ofFn _).trans ?_
    dsimp only
    rw [readProductSlot, hatLeast, hgrade]
  · rw [judged .link h, TableKind.judge, readLink]
    simp only [hone, hwithin, Nat.reduceLeDiff]
    rfl
  · rw [judged .shift h, TableKind.judge, readShift, Nat.testBit_zero, testBit_one_eq, testBit_two_eq]
    simp only [hone]
    rfl

end Sys2Proof.Machine
end
